-- ==== Sys2Proof/Word.lean ====
section
/-!
DEFINITION. The bit vectors of the UJ-220: a byte (8 bits), a word (32 bits, 00 section 0.6) and a lane
(one of the eight 4-bit parts of a word).
-/

namespace Sys2Proof

/-- One byte of a frame, a response, a message or a profile image. -/
abbrev Byte := BitVec 8

/-- One word: 32 bits, the unit of memory organisation and of one host beat (00, section 0.6). -/
abbrev Word := BitVec 32

/-- The four bits of one lane of a word (01, section 1.6). -/
abbrev Nibble := BitVec 4

end Sys2Proof
end

