-- ==== Sys2Proof/Config.lean ====
section
/-!
DEFINITION. What the UJ-220 fixes once and for all (capacities, identification, factory values) and the
values the specification leaves open (constants without a body, so that no proof can see them).
-/

namespace Sys2Proof.Config

/-- The merge queue holds at most 16 entries (R47). -/
abbrev queueCapacity : Nat := 16

/-- The damage list holds at most 24 records (R74). -/
abbrev damageCapacity : Nat := 24

/-- The event queue holds at most 16 records (R182). -/
abbrev eventCapacity : Nat := 16

/-- The request queue holds at most 8 records (R143). -/
abbrev requestCapacity : Nat := 8

/-- The stream wait count at which STREAM is granted first (R132). -/
abbrev streamGuard : Nat := 8

/-- EVENTS_READ removes at most four records (R187). -/
abbrev eventsPerRead : Nat := 4

/-- A write transfer acknowledges at most 33 bytes after its address (R159). -/
abbrev maxFrame : Nat := 33

/-- The page of a window's host range, in bytes (R20). -/
abbrev page : Nat := 4096

/-- One unit of the answer limit, 0.1 ms, in microseconds (R96). -/
abbrev answerUnit : Nat := 100

/-- Bytes of one profile slot (R18). -/
abbrev slotBytes : Nat := 512

/-- The bytes of an image that PROFILE_WRITE programs and reads back: 0 to 507 (R199). -/
abbrev imageBytes : Nat := 508

/-- Factory high-water (R72, R207). -/
abbrev factoryHighWater : Nat := 12

/-- Factory linger time in microseconds (R72, R207). -/
abbrev factoryLinger : Nat := 16

/-- Factory wait limit in microseconds (R140, R207). -/
abbrev factoryWaitLimit : Nat := 8

/-- Factory answer limit in units of 0.1 ms (R123, R207). -/
abbrev factoryAnswerLimit : Nat := 20

/-- Factory retries (R123, R207). -/
abbrev factoryRetries : Nat := 2

/-- The bits of an image byte that an interrupted programming had not yet turned to 0. FREE VALUE: the
programming "stops where it stands" (R201), and where it stands is not given (log 14). The argument is the free-value
counter times 508 plus the byte's offset. -/
opaque interruptedBits : Nat → Byte

/-- Which of two timers that run out in one idle microsecond is taken first. FREE VALUE: which of two simultaneous
events is taken first is not set by the device (R186; log 3). The argument is the free-value counter. -/
opaque accessTimerFirst : Nat → Bool

/-- The place that one of several events of one moment takes among the others. FREE VALUE: which of two simultaneous events
is taken first is not set by the device (R186; log 28). The argument is the free-value counter; the place is its value modulo
the number of places. -/
opaque eventPlace : Nat → Nat

end Sys2Proof.Config
end

