-- ==== Sys2Proof/Syntax.lean ====
section
/-!
DEFINITION. The commands of the UJ-220: one constructor of `Instr` for each row of spec/opcode_table.json, with
the row's operands. Management frames carry their parameters in the encodings of R12 and R172 to R179; the bytes
of a frame are read in Decode.lean.
-/

namespace Sys2Proof

/-- One beat of a WRITE request: 32 data bits on HAD and the four byte enables HBE0 to HBE3 (R142). -/
structure WriteBeat where
  data    : Word
  enables : BitVec 4
deriving DecidableEq, Repr, Inhabited

/-- A request as the host presents it (R142): the address lines, the length less one on HLEN, and for a WRITE its
beats. A WRITE has one beat more than HLEN says (WellFormed). -/
inductive HostRequest where
  | read  (address : Word) (hlen : BitVec 4)
  | write (address : Word) (hlen : BitVec 4) (beats : List WriteBeat)
deriving DecidableEq, Repr

/-- A rectangle as six frame bytes carry it: two packed pairs of 12-bit coordinates (R12). -/
structure PackedRect where
  x0 : BitVec 12
  y0 : BitVec 12
  x1 : BitVec 12
  y1 : BitVec 12
deriving DecidableEq, Repr

/-- The commands, in the table's order. -/
inductive Instr where
  /-- POWER_ON (R209), with the level of the ASEL strap (R159): true is high. -/
  | powerOn (asel : Bool)
  /-- RESET_PIN (R209), with the level of the ASEL strap. -/
  | resetPin (asel : Bool)
  /-- SLOT_EXAMINATION (R204). -/
  | slotExamination
  /-- APPLY_GLOBAL_SETTINGS (R205). -/
  | applyGlobalSettings
  /-- BROKEN_FRAME (R160). -/
  | brokenFrame
  /-- UNKNOWN_COMMAND_FRAME (R160): overlong, unknown code, or a parameter count not accepted. -/
  | unknownCommandFrame
  /-- STATUS, 01h (R166). -/
  | status
  /-- IDENT, 02h (R167). -/
  | ident
  /-- SOFT_RESET, 0Fh (R164). -/
  | softReset
  /-- SOFT_RESET_PHASE2_END (R169). -/
  | softResetPhase2End
  /-- SOFT_RESET_PHASE3_END (R169). -/
  | softResetPhase3End
  /-- STAGE_WINDOW, 10h (R21): the 32 bytes of a descriptor. -/
  | stageWindow (descriptor : List Byte)
  /-- OPEN_WINDOW, 11h (R22). -/
  | openWindow (window : Byte)
  /-- CLOSE_WINDOW, 12h (R28). -/
  | closeWindow (window : Byte)
  /-- CLOSE_DRAIN_COMPLETE (R30). -/
  | closeDrainComplete
  /-- QUERY_WINDOW, 13h (R43). -/
  | queryWindow (window : Byte)
  /-- SET_SCROLL, 14h (R32). -/
  | setScroll (window : Byte) (scroll : BitVec 16)
  /-- SET_KEY, 15h (R34): five parameter bytes with a key, one without. -/
  | setKey (window : Byte) (key : Option Word)
  /-- SET_CLIP, 16h (R35): seven parameter bytes with a rectangle, one without. -/
  | setClip (window : Byte) (clip : Option PackedRect)
  /-- SET_ACCESS, 17h (R36). -/
  | setAccess (window : Byte) (mode : Byte)
  /-- FLUSH, 20h (R65): a window number, or FFh for every entry. -/
  | flush (selection : Byte)
  /-- FLUSH_COMPLETE (R66). -/
  | flushComplete
  /-- QUEUE_CONFIG, 21h (R69). -/
  | queueConfig (highWater : Byte) (linger : Byte)
  /-- DAMAGE_READ, 30h (R92). -/
  | damageRead
  /-- DAMAGE_ADD, 31h (R84). -/
  | damageAdd (window : Byte) (rect : PackedRect)
  /-- DAMAGE_CLEAR, 32h (R85). -/
  | damageClear (window : Byte)
  /-- STREAM_MODE, 40h (R116). -/
  | streamMode (mode : Byte)
  /-- STREAM_CONFIG, 41h (R119). -/
  | streamConfig (format : Byte) (answerLimit : Byte) (retries : Byte)
  /-- STREAM_RESUME, 42h (R115). -/
  | streamResume
  /-- EVENTS_READ, 50h (R187). -/
  | eventsRead
  /-- IRQ_MASK, 51h (R168): one byte sets the mask, none reads it. -/
  | irqMask (mask : Option Byte)
  /-- PROFILE_ARM, 60h (R165). -/
  | profileArm (slot : Byte)
  /-- PROFILE_WRITE, 61h (R177, R198). -/
  | profileWrite
  /-- PROGRAMMING_END (R200), with the bits that did not take: offset in the slot and the bits that stayed
  unprogrammed there (log 15). -/
  | programmingEnd (failed : List (Nat × Byte))
  /-- PROFILE_RETIRE, 62h (R178, R203). -/
  | profileRetire
  /-- PROFILE_LOAD, 63h (R179, R211). -/
  | profileLoad (slot : Byte)
  /-- HOST_REQUEST_ACCEPT (R143). -/
  | hostRequestAccept (request : HostRequest)
  /-- BEAT_DECODE (R146). -/
  | beatDecode
  /-- LANE_ARRIVAL (R49). -/
  | laneArrival
  /-- HOST_ANSWER_TRANSFER (R147). -/
  | hostAnswerTransfer
  /-- ENTRY_DUE (R53), for the entry of the memory word at this byte address. -/
  | entryDue (word : BitVec 24)
  /-- ARBITER_GRANT (R132). -/
  | arbiterGrant
  /-- MEMORY_ANSWER (R128), with the word on MD at the rising edge of MACK. -/
  | memoryAnswer (md : Word)
  /-- ACCESS_TIMEOUT (R129). -/
  | accessTimeout
  /-- PIXEL_SENT (R104). -/
  | pixelSent
  /-- END_SENT (R105). -/
  | endSent
  /-- PANEL_ACCEPT (R106): a rising edge of PACC. -/
  | panelAccept
  /-- PANEL_REFUSE (R107): a rising edge of PREJ. -/
  | panelRefuse
  /-- ANSWER_TIMEOUT (R107). -/
  | answerTimeout
  /-- SYNC (R99): a rising edge of SYNC. -/
  | sync
  /-- ABORT_MESSAGE_SENT (R102, R110). -/
  | abortMessageSent
deriving DecidableEq, Repr

end Sys2Proof
end

