-- ==== Sys2Proof/Decode.lean ====
section
/-!
DEFINITION. From bits to commands. No row of spec/opcode_table.json gives bits, so `decodeTableWord` spells no
command. The commands that software sends are byte frames on the management port: `decodeTransfer` reads a write
transfer by R14, R159, R160 and R164 to R179, and `encodeFrame` writes the frame of a command.
-/

namespace Sys2Proof

/-- The command that a word spells by the table's bits: none, since no row of the table gives bits (log 20). -/
def decodeTableWord (_nbits _w : Nat) : Option Instr := none

/-- A 16-bit integer, least significant byte first (R12). -/
def Decode.le16 (b0 b1 : Byte) : BitVec 16 := b1 ++ b0

/-- A 32-bit integer, least significant byte first (R12). -/
def Decode.le32 (b0 b1 b2 b3 : Byte) : Word := b3 ++ b2 ++ b1 ++ b0

/-- The first coordinate of a packed pair: byte 0, and bits 3 to 0 of byte 1 above it (R12). -/
def Decode.pairU (b0 b1 : Byte) : BitVec 12 := b1.extractLsb' 0 4 ++ b0

/-- The second coordinate of a packed pair: bits 7 to 4 of byte 1, and byte 2 above them (R12). -/
def Decode.pairV (b1 b2 : Byte) : BitVec 12 := b2 ++ b1.extractLsb' 4 4

/-- A rectangle in six bytes (R12). -/
def Decode.rect (a0 a1 a2 c0 c1 c2 : Byte) : PackedRect :=
  ⟨pairU a0 a1, pairV a1 a2, pairU c0 c1, pairV c1 c2⟩

/-- The three bytes of a coordinate pair (R12). -/
def Decode.pairBytes (u v : BitVec 12) : List Byte :=
  [u.extractLsb' 0 8, v.extractLsb' 0 4 ++ u.extractLsb' 8 4, v.extractLsb' 4 8]

/-- The six bytes of a rectangle (R12). -/
def Decode.rectBytes (r : PackedRect) : List Byte := pairBytes r.x0 r.y0 ++ pairBytes r.x1 r.y1

/-- The bytes of a 16-bit integer (R12). -/
def Decode.le16Bytes (v : BitVec 16) : List Byte := [v.extractLsb' 0 8, v.extractLsb' 8 8]

/-- The bytes of a 32-bit integer (R12). -/
def Decode.le32Bytes (v : Word) : List Byte :=
  [v.extractLsb' 0 8, v.extractLsb' 8 8, v.extractLsb' 16 8, v.extractLsb' 24 8]

/-- The command of a frame by its code and parameters (R164 to R168, R172 to R179); none for an unknown code or a
parameter count the command does not accept (R14). -/
def decodeCommand (code : Byte) (params : List Byte) : Option Instr :=
  match code.toNat, params with
  | 0x01, [] => some .status
  | 0x02, [] => some .ident
  | 0x0F, [] => some .softReset
  | 0x10, d  => if d.length = 32 then some (.stageWindow d) else none
  | 0x11, [n] => some (.openWindow n)
  | 0x12, [n] => some (.closeWindow n)
  | 0x13, [n] => some (.queryWindow n)
  | 0x14, [n, v0, v1] => some (.setScroll n (Decode.le16 v0 v1))
  | 0x15, [n] => some (.setKey n none)
  | 0x15, [n, k0, k1, k2, k3] => some (.setKey n (some (Decode.le32 k0 k1 k2 k3)))
  | 0x16, [n] => some (.setClip n none)
  | 0x16, [n, a0, a1, a2, c0, c1, c2] => some (.setClip n (some (Decode.rect a0 a1 a2 c0 c1 c2)))
  | 0x17, [n, m] => some (.setAccess n m)
  | 0x20, [sel] => some (.flush sel)
  | 0x21, [hw, lg] => some (.queueConfig hw lg)
  | 0x30, [] => some .damageRead
  | 0x31, [n, a0, a1, a2, c0, c1, c2] => some (.damageAdd n (Decode.rect a0 a1 a2 c0 c1 c2))
  | 0x32, [n] => some (.damageClear n)
  | 0x40, [m] => some (.streamMode m)
  | 0x41, [f, l, r] => some (.streamConfig f l r)
  | 0x42, [] => some .streamResume
  | 0x50, [] => some .eventsRead
  | 0x51, [] => some (.irqMask none)
  | 0x51, [m] => some (.irqMask (some m))
  | 0x60, [s] => some (.profileArm s)
  | 0x61, [] => some .profileWrite
  | 0x62, [] => some .profileRetire
  | 0x63, [s] => some (.profileLoad s)
  | _, _ => none

/-- What the port takes from the frame of an acknowledged write transfer at its end (R160): the bytes acknowledged, the
overlong mark, and whether the transfer ended inside a further byte. None where no frame is taken. A transfer that ends
inside its first byte is a broken frame (DEDUCED; log 18). -/
def decodeFrame (frame : List Byte) (overlong inByte : Bool) : Option Instr :=
  if inByte then some .brokenFrame
  else match frame with
    | [] => none
    | code :: params =>
      some (if overlong then .unknownCommandFrame else (decodeCommand code params).getD .unknownCommandFrame)

/-- What the port takes from all the bytes written after an acknowledged address (R159, R160): the first 33 form the frame,
and a further one makes the transfer overlong. -/
def decodeTransfer (bytes : List Byte) (inByte : Bool) : Option Instr :=
  decodeFrame (bytes.take Config.maxFrame) (decide (Config.maxFrame < bytes.length)) inByte

/-- The frame that carries a command (R172 to R179); none for a row that is not a well-formed frame of software. -/
def encodeFrame : Instr → Option (List Byte)
  | .status => some [0x01]
  | .ident => some [0x02]
  | .softReset => some [0x0F]
  | .stageWindow d => some (0x10 :: d)
  | .openWindow n => some [0x11, n]
  | .closeWindow n => some [0x12, n]
  | .queryWindow n => some [0x13, n]
  | .setScroll n v => some ([0x14, n] ++ Decode.le16Bytes v)
  | .setKey n none => some [0x15, n]
  | .setKey n (some k) => some ([0x15, n] ++ Decode.le32Bytes k)
  | .setClip n none => some [0x16, n]
  | .setClip n (some r) => some ([0x16, n] ++ Decode.rectBytes r)
  | .setAccess n m => some [0x17, n, m]
  | .flush sel => some [0x20, sel]
  | .queueConfig hw lg => some [0x21, hw, lg]
  | .damageRead => some [0x30]
  | .damageAdd n r => some ([0x31, n] ++ Decode.rectBytes r)
  | .damageClear n => some [0x32, n]
  | .streamMode m => some [0x40, m]
  | .streamConfig f l r => some [0x41, f, l, r]
  | .streamResume => some [0x42]
  | .eventsRead => some [0x50]
  | .irqMask none => some [0x51]
  | .irqMask (some m) => some [0x51, m]
  | .profileArm s => some [0x60, s]
  | .profileWrite => some [0x61]
  | .profileRetire => some [0x62]
  | .profileLoad s => some [0x63, s]
  | .powerOn _ | .resetPin _ | .slotExamination | .applyGlobalSettings | .brokenFrame | .unknownCommandFrame
  | .softResetPhase2End | .softResetPhase3End | .closeDrainComplete | .flushComplete | .programmingEnd _
  | .hostRequestAccept _ | .beatDecode | .laneArrival | .hostAnswerTransfer | .entryDue _ | .arbiterGrant
  | .memoryAnswer _ | .accessTimeout | .pixelSent | .endSent | .panelAccept | .panelRefuse | .answerTimeout | .sync
  | .abortMessageSent => none

end Sys2Proof
end

