-- ==== Sys2Proof/Machine/State.lean ====
section
/-!
DEFINITION. The state of the UJ-220, block by block as 00 section 0.3 names the blocks and what each owns, the
reasons a step can stop, and the state after reset. Plain data throughout.
-/

namespace Sys2Proof.Machine

/-! ### Enumerated values (R12) -/

/-- A window's format as the host sees it (R1). -/
inductive HostFormat where
  | h8 | h16 | h32
deriving DecidableEq, Repr

/-- A window's format in memory (R2). -/
inductive StoredFormat where
  | l4 | c8 | c12 | c16 | c24 | c32
deriving DecidableEq, Repr

/-- Which stored field holds red and which blue (R2). -/
inductive ChannelOrder where
  | rgb | bgr
deriving DecidableEq, Repr

/-- A window's access mode (R36). -/
inductive AccessMode where
  | readWrite | readOnly | writeOnly
deriving DecidableEq, Repr

/-- The pixel format on the panel link (R3). -/
inductive PanelFormat where
  | p16 | p24
deriving DecidableEq, Repr

/-- The streamer's mode (R96). -/
inductive StreamMode where
  | off | free | gated
deriving DecidableEq, Repr

/-- The streamer's state (R97). -/
inductive StreamState where
  | off | idle | waitSync | sending | awaitAnswer | stalled
deriving DecidableEq, Repr

/-- The held state of a profile slot (R195). -/
inductive SlotState where
  | blank | programming | written | retired | damaged
deriving DecidableEq, Repr

/-- The result codes (00, section 0.8). -/
inductive Result where
  | done | accepted | busy | badArg | badState | overlap | range | fault | aborted
deriving DecidableEq, Repr

/-- Why a host beat or a whole request is refused (R150). -/
inductive RefuseReason where
  | partialPixel | readOnly | writeOnly | draining | outOfMemory | wrap | resetting
deriving DecidableEq, Repr

/-- Who created a merge-queue entry (R46). -/
inductive Creator where
  | window (n : Fin 8)
  | bypass
deriving DecidableEq, Repr

/-- Why a region failed for good (R108). -/
inductive LinkCause where
  | refused | noAnswer
deriving DecidableEq, Repr

/-- A rectangle with inclusive corners (00, section 0.7). -/
structure Rect where
  x0 : Nat
  y0 : Nat
  x1 : Nat
  y1 : Nat
deriving DecidableEq, Repr

/-! ### Aperture table -/

/-- The fields of a window record that are present while it is in use (R19). -/
structure WindowValues where
  hostBase     : Nat
  hostSpan     : Nat
  memBase      : Nat
  width        : Nat
  height       : Nat
  hostFormat   : HostFormat
  storedFormat : StoredFormat
  order        : ChannelOrder
  mirrorX      : Bool
  mirrorY      : Bool
  pitch        : Nat
  scroll       : Nat
  access       : AccessMode
  key          : Option Nat
  clip         : Option Rect
  tracking     : Bool
  origin       : Option (Nat × Nat)
deriving DecidableEq, Repr

/-- A window record (R19): UNUSED with every other field absent, or in use. -/
inductive Window where
  | unused
  | active   (v : WindowValues)
  | draining (v : WindowValues)
deriving DecidableEq, Repr

/-- The aperture table: W0 to W7 (R19) and the staging descriptor, EMPTY or FILLED with 32 bytes (R21). -/
structure Table where
  windows : Vector Window 8
  staging : Option (List Byte)
deriving DecidableEq, Repr

/-! ### Merge queue -/

/-- The eight lanes of a word: a lane that is not valid holds no data (R46). -/
abbrev Lanes := Vector (Option Nibble) 8

/-- The states of an entry (section 3.2). -/
inductive EntryState where
  | collecting | fetching | pendingWrite | writing
deriving DecidableEq, Repr

/-- A merge-queue entry (R46). Its age is in microseconds. -/
structure Entry where
  word      : Nat
  lanes     : Lanes
  creator   : Creator
  age       : Nat
  flushMark : Bool
  retryUsed : Bool
  state     : EntryState
deriving DecidableEq, Repr

/-- The merge queue: entries oldest first (R47), the high-water (R54) and the linger time in microseconds (R53). -/
structure MergeQueue where
  entries   : List Entry
  highWater : Nat
  linger    : Nat
deriving DecidableEq, Repr

/-! ### Damage list -/

/-- The states of a damage record (R74). -/
inductive RecordState where
  | pending | streaming
deriving DecidableEq, Repr

/-- A damage record (R74). Its place in the touch order (R76) is its stamp: of two records the one with the greater stamp
stands newer (log 16). -/
structure Record where
  window : Fin 8
  rect   : Rect
  state  : RecordState
  mark   : Bool
  touch  : Nat
deriving DecidableEq, Repr

/-- The damage list: records in list order (R75), and the next stamp of the touch order (the model's own; log 16). -/
structure DamageList where
  records   : List Record
  nextTouch : Nat
deriving DecidableEq, Repr

/-! ### Refresh streamer and panel link -/

/-- The current record and the region progress (R96). `begun` says that REGION of this attempt has begun on the link
(R102); `nextRead` is the pixel being read, counted in row-major order; `words` the overlaid words answered for it;
`ready` the panel values of pixels converted and not yet sent, oldest first; `sent` the number of pixels sent. -/
structure Region where
  window   : Fin 8
  rect     : Rect
  begun    : Bool
  nextRead : Nat
  words    : List Word
  ready    : List Nat
  sent     : Nat
  checksum : BitVec 16
deriving DecidableEq, Repr

/-- The refresh streamer (R96). The answer timer is in microseconds, the answer limit in units of 0.1 ms. -/
structure Streamer where
  state       : StreamState
  mode        : StreamMode
  passOpen    : Bool
  region      : Option Region
  retriesUsed : Nat
  answerTimer : Option Nat
  panelFormat : PanelFormat
  answerLimit : Nat
  retries     : Nat
deriving DecidableEq, Repr

/-- What has been put on the panel link (R17): a REGION message begun, a pixel's bytes of DATA gone out (the first
with the type byte before them), an END message gone out,
an ABORT message gone out. -/
inductive LinkItem where
  | regionBegun (bytes : List Byte)
  | pixel (bytes : List Byte)
  | endGone (bytes : List Byte)
  | abortGone (bytes : List Byte)
deriving DecidableEq, Repr

/-- The panel link: ABORT messages begun or owed and not yet gone out (R110; log 10), and the model's own record of what
has been put on the link since reset (log 9). -/
structure PanelLink where
  abortsOwed : Nat
  log        : List LinkItem
deriving DecidableEq, Repr

/-! ### Memory port -/

/-- Who makes an access (R126). -/
inductive Requester where
  | hostRead | drain | stream
deriving DecidableEq, Repr

/-- The access in flight (R126): a write carries the word written. Timer and limit are in microseconds. -/
structure Access where
  requester : Requester
  write     : Option Word
  address   : Nat
  abandoned : Bool
  timer     : Nat
  limit     : Nat
deriving DecidableEq, Repr

/-- The configured memory size (R126). -/
inductive MemSize where
  | mib1 | mib2 | mib4 | mib8 | mib16
deriving DecidableEq, Repr

/-- The memory port and its arbiter (R126). -/
structure MemoryPort where
  access     : Option Access
  memSize    : MemSize
  waitLimit  : Nat
  streamWait : Nat
deriving DecidableEq, Repr

/-! ### Host port -/

/-- READ or WRITE (R143). -/
inductive RequestKind where
  | read | write
deriving DecidableEq, Repr

/-- What a record's answer is (R143): not yet due, due, or going out. -/
inductive AnswerState where
  | notYetDue | due | goingOut
deriving DecidableEq, Repr

/-- The outcome of a done beat: its status, and for a READ its data (R143). Data is 0 where there is none. -/
structure BeatOutcome where
  error : Bool
  data  : Word
deriving DecidableEq, Repr

/-- A request record (R143). `outcomes` are those of the beats done so far, in beat order; the answer is due when there
is one for every beat. Only the oldest record's answer can be going out (R147), and whether it is stands in the port
(`HostPort.sending`); the three values of the answer field are read off both by `HostPort.answerState?`. -/
structure HostRecord where
  kind     : RequestKind
  address  : Nat
  length   : Nat
  beats    : List WriteBeat
  refusal  : Option RefuseReason
  outcomes : List BeatOutcome
deriving DecidableEq, Repr

/-- What the decode of a window beat carries (R39): the window, its values at the decode, and the logical position of the
beat's first pixel. -/
structure Carried where
  window : Fin 8
  values : WindowValues
  x      : Nat
  y      : Nat
deriving DecidableEq, Repr

/-- One lane of a beat's lane set (R48). -/
structure LaneWrite where
  word : Nat
  lane : Fin 8
  bits : Nibble
deriving DecidableEq, Repr

/-- The current beat once decoded and until it is done (R146). A write holds its creator, lane set (R48) and, for a
window beat, the carried values and the run of the applied pixels (R77). A read holds the words it needs in increasing
order and the overlaid words answered so far (R152). -/
inductive BeatAction where
  | write (creator : Creator) (lanes : List LaneWrite) (run : Option (Carried × Rect))
  | read (carried : Option Carried) (words : List Nat) (answered : List Word)
deriving DecidableEq, Repr

/-- One answer beat of an answer transfer (R147). -/
structure AnswerBeat where
  data  : Word
  error : Bool
deriving DecidableEq, Repr

/-- The host port's state (R145). -/
inductive PortState where
  | accepting | held | refusing
deriving DecidableEq, Repr

/-- A WRITE whose address the device has taken and whose last beat it has not (R142): the address, the length less one, and
the beats taken so far. It is presented and not yet accepted. -/
structure Incoming where
  address : Word
  hlen    : BitVec 4
  beats   : List WriteBeat
deriving DecidableEq, Repr

/-- The host port: state, request queue oldest first, the beat in action, the model's own record of the answer transfers
sent since reset (log 8), the WRITE transfer under way (R142), and, while the oldest record's answer is going out, the number
of its answer beats that have gone (R143, R147). -/
structure HostPort where
  state    : PortState
  requests : List HostRecord
  action   : Option BeatAction
  answers  : List (List AnswerBeat)
  incoming : Option Incoming
  sending  : Option Nat
deriving DecidableEq, Repr

/-! ### Management port -/

/-- The phases of SOFT_RESET (R169). -/
inductive ResetPhase where
  | phase1 | phase2 | phase3 | phase4 | phase5 | phase6 | phase7
deriving DecidableEq, Repr

/-- The occupant of the long-operation slot (R163). A FLUSH selects one window's entries or, with none, every entry, and
keeps its wait set as the word addresses of its entries (R65; log 17). -/
inductive LongOp where
  | closeWindow (n : Fin 8)
  | flush (selection : Option (Fin 8)) (waitSet : List Nat)
  | profileWrite (s : Fin 4)
  | profileLoad (s : Fin 4)
  | softReset (phase : ResetPhase)
deriving DecidableEq, Repr

/-- A transfer under way whose address byte the port has acknowledged (R159): a write with the bytes acknowledged so far
and its overlong mark, or a read with the buffer's content at the address byte and the number of bytes sent (R161). -/
inductive Transfer where
  | write (frame : List Byte) (overlong : Bool)
  | read (content : List Byte) (sent : Nat)
deriving DecidableEq, Repr

/-- The management port: sampled strap (R159), response buffer (R162), long-operation slot (R163), arm (R165), load
outcome, none for the factory values (R166), and the transfer under way, none where the port takes part in none (R159,
R180; log 18). -/
structure Management where
  asel        : Bool
  response    : List Byte
  slot        : Option LongOp
  arm         : Option (Fin 4)
  loadOutcome : Option (Fin 4)
  transfer    : Option Transfer
deriving DecidableEq, Repr

/-! ### Event queue -/

/-- The kinds of event with the fields each has (R16, R182). -/
inductive Event where
  | hostRefused (reason : RefuseReason) (window : Option (Fin 8)) (address : Nat)
  | hostReadTimeout (window : Option (Fin 8)) (address : Nat)
  | drainTimeout (write : Bool) (creator : Creator) (address : Nat)
  | streamTimeout (window : Fin 8) (address : Nat)
  | linkFail (window : Fin 8) (rect : Rect) (cause : LinkCause)
  | damageCollapse (window : Fin 8)
  | opDone (command : Byte) (result : Result)
  | profileLoaded (slot : Option (Fin 4))
  | profileFault (slot : Fin 4) (window : Option (Fin 8)) (result : Result)
deriving DecidableEq, Repr

/-- An event record (R182). -/
structure EventRecord where
  sequence : Byte
  event    : Event
  lost     : Bool
deriving DecidableEq, Repr

/-- The event queue: records oldest first (R182), the sequence counter (R183) and the interrupt mask (R188). -/
structure EventQueue where
  records : List EventRecord
  counter : Byte
  mask    : BitVec 7
deriving DecidableEq, Repr

/-! ### Profile store -/

/-- A PROFILE_WRITE in flight: its slot and the captured image, bytes 0 to 507 (R198). -/
structure Programming where
  slot  : Fin 4
  image : List Byte
deriving DecidableEq, Repr

/-- What runs a load (R208, R210, R211). -/
inductive LoadKind where
  | startUp | softReset | profileLoad (s : Fin 4)
deriving DecidableEq, Repr

/-- Where a load stands: it examines a slot (R204), or waits for the memory port to be free to apply the image of a slot
or, with none, the factory values (R205). -/
inductive LoadStage where
  | examining (s : Fin 4)
  | applying (image : Option (Fin 4))
deriving DecidableEq, Repr

/-- A load in progress. -/
structure Load where
  kind  : LoadKind
  stage : LoadStage
deriving DecidableEq, Repr

/-- The profile store: the bytes of the four slots at 512 s + offset, listed where they differ from FFh (R18, R195), the
held states (R195), the write in flight (R198) and the load in progress (R208, R211). -/
structure ProfileStore where
  otp         : List Host.Cell
  held        : Vector SlotState 4
  programming : Option Programming
  load        : Option Load
deriving DecidableEq, Repr

/-! ### The whole device -/

/-- The state of the UJ-220. `freeCount` counts the free values read (the model's own; logs 3, 14, 28) and `pending` is
the queue of waiting commands, first in first out. -/
structure State where
  table     : Table
  merge     : MergeQueue
  damage    : DamageList
  streamer  : Streamer
  link      : PanelLink
  port      : MemoryPort
  host      : HostPort
  mgmt      : Management
  events    : EventQueue
  store     : ProfileStore
  freeCount : Nat
  pending   : List Instr
deriving DecidableEq, Repr

/-- A step can stop with no fault: the spec gives every command an effect in every state (log 22). The type has no
constructor, so nothing raises one; this is safe. -/
inductive Fault where
deriving DecidableEq, Repr

/-- Why a step can have no meaning. -/
inductive Refusal where
  /-- A row of the table without a meaning, raised by an arm of `exec` only; no arm raises it. Safe. -/
  | notModelled (mnemonic : String)
deriving DecidableEq, Repr

/-- The table at reset: every window UNUSED and the staging descriptor EMPTY (R44). -/
def Table.atReset : Table := ⟨Vector.replicate 8 .unused, none⟩

/-- The merge queue at reset (R72). -/
def MergeQueue.atReset : MergeQueue := ⟨[], Config.factoryHighWater, Config.factoryLinger⟩

/-- The damage list at reset (R94). -/
def DamageList.atReset : DamageList := ⟨[], 0⟩

/-- The streamer at reset (R123). -/
def Streamer.atReset : Streamer :=
  { state := .off, mode := .off, passOpen := false, region := none, retriesUsed := 0, answerTimer := none
    panelFormat := .p16, answerLimit := Config.factoryAnswerLimit, retries := Config.factoryRetries }

/-- The panel link at reset: a message going out is cut and no ABORT is owed (R123). -/
def PanelLink.atReset : PanelLink := ⟨0, []⟩

/-- The memory port at reset (R140). -/
def MemoryPort.atReset : MemoryPort := ⟨none, .mib4, Config.factoryWaitLimit, 0⟩

/-- The host port at reset (R156): HELD, its queue empty, a transfer in either direction cut. -/
def HostPort.atReset : HostPort := ⟨.held, [], none, [], none, none⟩

/-- The management port at reset, with the sampled strap (R180): the response buffer holds BUSY (02h), and a transfer under
way is abandoned. -/
def Management.atReset (asel : Bool) : Management := ⟨asel, [0x02], none, none, none, none⟩

/-- The event queue at reset (R191). -/
def EventQueue.atReset : EventQueue := ⟨[], 0, 0x7F⟩

/-- The load that power-on and the RESET pin start: the examination of slot 3 (R208, R209). -/
def Load.atReset : Load := ⟨.startUp, .examining 3⟩

/-- The machine right after power-on of a part whose slots were never programmed (log 11), with ASEL low (log 12): every
block at its reset values and the start-up load begun (R209). -/
def State.reset : State :=
  { table := .atReset, merge := .atReset, damage := .atReset, streamer := .atReset, link := .atReset
    port := .atReset, host := .atReset, mgmt := .atReset false, events := .atReset
    store := ⟨[], Vector.replicate 4 .blank, none, some .atReset⟩
    freeCount := 0, pending := [] }

end Sys2Proof.Machine
end

