-- ==== Sys2Proof/Machine/Operands.lean ====
section
/-!
DEFINITION. The formats and layouts of chapter 1: pixel formats and their conversion (R1 to R9), the placement of
stored pixels in lanes (R10, R41), the codes of R12, and the byte layouts of descriptors (R13), records (R15, R16), panel
messages (R17) and profile images (R18).
-/

namespace Sys2Proof.Machine

/-! ### Bytes and integers (R12, section 1.7) -/

/-- The byte n mod 256. -/
def byteOf (n : Nat) : Byte := BitVec.ofNat 8 n

/-- A 16-bit integer, least significant byte first. -/
def le16Of (n : Nat) : List Byte := [byteOf n, byteOf (n / 256)]

/-- A 32-bit integer, least significant byte first. -/
def le32Of (n : Nat) : List Byte := [byteOf n, byteOf (n / 256), byteOf (n / 65536), byteOf (n / 16777216)]

/-- A 16-bit integer, most significant byte first (panel link). -/
def be16Of (n : Nat) : List Byte := [byteOf (n / 256), byteOf n]

/-- A coordinate pair in three bytes (R12). -/
def pairOf (u v : Nat) : List Byte := [byteOf u, byteOf (u / 256 % 16 + v % 16 * 16), byteOf (v / 16)]

/-- A rectangle in six bytes (R12). -/
def rectOf (r : Rect) : List Byte := pairOf r.x0 r.y0 ++ pairOf r.x1 r.y1

/-- Byte i of a list as a number; 0 beyond its end. -/
def byteAt (bs : List Byte) (i : Nat) : Nat := (bs.getD i 0).toNat

/-- The 16-bit integer at byte i. -/
def le16At (bs : List Byte) (i : Nat) : Nat := byteAt bs i + 256 * byteAt bs (i + 1)

/-- The 32-bit integer at byte i. -/
def le32At (bs : List Byte) (i : Nat) : Nat := le16At bs i + 65536 * le16At bs (i + 2)

/-- The coordinate pair at byte i. -/
def pairAt (bs : List Byte) (i : Nat) : Nat × Nat :=
  (byteAt bs i + 256 * (byteAt bs (i + 1) % 16), byteAt bs (i + 1) / 16 + 16 * byteAt bs (i + 2))

/-- The rectangle at byte i. -/
def rectAt (bs : List Byte) (i : Nat) : Rect :=
  ⟨(pairAt bs i).1, (pairAt bs i).2, (pairAt bs (i + 3)).1, (pairAt bs (i + 3)).2⟩

/-- The sum of a list's bytes. -/
def sumBytes (bs : List Byte) : Nat := (bs.map BitVec.toNat).sum

/-- The rectangle of six frame bytes (R12). -/
def unpackRect (r : PackedRect) : Rect := ⟨r.x0.toNat, r.y0.toNat, r.x1.toNat, r.y1.toNat⟩

/-! ### Codes of enumerated values (R12) -/

def HostFormat.code : HostFormat → Nat
  | .h8 => 0 | .h16 => 1 | .h32 => 2

def HostFormat.ofCode : Nat → Option HostFormat
  | 0 => some .h8 | 1 => some .h16 | 2 => some .h32 | _ => none

def StoredFormat.code : StoredFormat → Nat
  | .l4 => 0 | .c8 => 1 | .c12 => 2 | .c16 => 3 | .c24 => 4 | .c32 => 5

def StoredFormat.ofCode : Nat → Option StoredFormat
  | 0 => some .l4 | 1 => some .c8 | 2 => some .c12 | 3 => some .c16 | 4 => some .c24 | 5 => some .c32 | _ => none

def ChannelOrder.code : ChannelOrder → Nat
  | .rgb => 0 | .bgr => 1

def AccessMode.code : AccessMode → Nat
  | .readWrite => 0 | .readOnly => 1 | .writeOnly => 2

def AccessMode.ofCode : Nat → Option AccessMode
  | 0 => some .readWrite | 1 => some .readOnly | 2 => some .writeOnly | _ => none

def PanelFormat.code : PanelFormat → Nat
  | .p16 => 0 | .p24 => 1

def PanelFormat.ofCode : Nat → Option PanelFormat
  | 0 => some .p16 | 1 => some .p24 | _ => none

def StreamMode.code : StreamMode → Nat
  | .off => 0 | .free => 1 | .gated => 2

def StreamMode.ofCode : Nat → Option StreamMode
  | 0 => some .off | 1 => some .free | 2 => some .gated | _ => none

def StreamState.code : StreamState → Nat
  | .off => 0 | .idle => 1 | .waitSync => 2 | .sending => 3 | .awaitAnswer => 4 | .stalled => 5

def SlotState.code : SlotState → Nat
  | .blank => 0 | .programming => 1 | .written => 2 | .retired => 3 | .damaged => 4

def Result.code : Result → Nat
  | .done => 0 | .accepted => 1 | .busy => 2 | .badArg => 3 | .badState => 4 | .overlap => 5 | .range => 6
  | .fault => 7 | .aborted => 8

def RefuseReason.code : RefuseReason → Nat
  | .partialPixel => 1 | .readOnly => 2 | .writeOnly => 3 | .draining => 4 | .outOfMemory => 5 | .wrap => 6
  | .resetting => 7

def Creator.code : Creator → Nat
  | .window n => n.val
  | .bypass => 8

def LinkCause.code : LinkCause → Nat
  | .refused => 0 | .noAnswer => 1

def MemSize.code : MemSize → Nat
  | .mib1 => 0 | .mib2 => 1 | .mib4 => 2 | .mib8 => 3 | .mib16 => 4

def MemSize.ofCode : Nat → Option MemSize
  | 0 => some .mib1 | 1 => some .mib2 | 2 => some .mib4 | 3 => some .mib8 | 4 => some .mib16 | _ => none

/-- The configured memory size in bytes (1 MiB is 1,048,576). -/
def MemSize.bytes : MemSize → Nat
  | .mib1 => 1048576 | .mib2 => 2097152 | .mib4 => 4194304 | .mib8 => 8388608 | .mib16 => 16777216

def ResetPhase.number : ResetPhase → Nat
  | .phase1 => 1 | .phase2 => 2 | .phase3 => 3 | .phase4 => 4 | .phase5 => 5 | .phase6 => 6 | .phase7 => 7

/-- The window state code (R12). -/
def Window.code : Window → Nat
  | .unused => 0 | .active _ => 1 | .draining _ => 2

/-- The values of a window that is ACTIVE or DRAINING (R19). -/
def Window.values? : Window → Option WindowValues
  | .unused => none
  | .active v => some v
  | .draining v => some v

/-- The values of an ACTIVE window. -/
def Window.active? : Window → Option WindowValues
  | .active v => some v
  | .unused | .draining _ => none

/-- The number a window byte names, if it is at most 7. -/
def windowNumber (n : Byte) : Option (Fin 8) := if h : n.toNat < 8 then some ⟨n.toNat, h⟩ else none

/-- The number a slot byte names, if it is at most 3. -/
def slotNumber (n : Byte) : Option (Fin 4) := if h : n.toNat < 4 then some ⟨n.toNat, h⟩ else none

/-- The window numbers in order. -/
def allWindows : List (Fin 8) := [0, 1, 2, 3, 4, 5, 6, 7]

/-- The slot numbers in order. -/
def allSlots : List (Fin 4) := [0, 1, 2, 3]

/-! ### Pixel formats (R1 to R3) -/

/-- Host bytes per pixel (R1). -/
def HostFormat.bytes : HostFormat → Nat
  | .h8 => 1 | .h16 => 2 | .h32 => 4

/-- Pixels carried by one host beat (R1). -/
def HostFormat.perBeat : HostFormat → Nat
  | .h8 => 4 | .h16 => 2 | .h32 => 1

/-- Bits of a stored pixel (R2). -/
def StoredFormat.bits : StoredFormat → Nat
  | .l4 => 4 | .c8 => 8 | .c12 => 12 | .c16 => 16 | .c24 => 24 | .c32 => 32

/-- Lanes of a stored pixel (R2). -/
def StoredFormat.lanes (f : StoredFormat) : Nat := f.bits / 4

/-- The depths of the fields F1, F2 and F3 of a colour format (R2); L4 has none. -/
def StoredFormat.depths : StoredFormat → Nat × Nat × Nat
  | .l4 => (0, 0, 0)
  | .c8 => (3, 3, 2)
  | .c12 => (4, 4, 4)
  | .c16 => (5, 6, 5)
  | .c24 => (8, 8, 8)
  | .c32 => (8, 8, 8)

/-! ### Channel arithmetic (R4, R5) -/

/-- `n` copies of the `d` binary digits of `v`, written one after the other. -/
def repeatDigits (v d : Nat) : Nat → Nat
  | 0 => 0
  | n + 1 => repeatDigits v d n * 2 ^ d + v

/-- A channel of depth `d` converted to depth `e` (R4): unchanged, narrowed to its top digits, or widened by repeating its
digits until `e` are written, the last copy cut short. -/
def convertDepth (v d e : Nat) : Nat :=
  if e = d then v
  else if e < d then v / 2 ^ (d - e)
  else
    let copies := (e + d - 1) / d
    repeatDigits v d copies / 2 ^ (copies * d - e)

/-- One channel: its depth and value. -/
structure Channel where
  depth : Nat
  value : Nat
deriving DecidableEq, Repr

/-- The channel at another depth (R4). -/
def Channel.to (c : Channel) (depth : Nat) : Nat := convertDepth c.value c.depth depth

/-- The channels of a pixel: grey, or red, green and blue (R5). -/
inductive Pixel where
  | grey (g : Channel)
  | colour (r g b : Channel)
deriving DecidableEq, Repr

/-- Red of a target colour pixel (R5). -/
def Pixel.red : Pixel → Nat → Nat
  | .grey g, d => g.to d
  | .colour r _ _, d => r.to d

/-- Green of a target colour pixel (R5). -/
def Pixel.green : Pixel → Nat → Nat
  | .grey g, d => g.to d
  | .colour _ g _, d => g.to d

/-- Blue of a target colour pixel (R5). -/
def Pixel.blue : Pixel → Nat → Nat
  | .grey g, d => g.to d
  | .colour _ _ b, d => b.to d

/-- Grey of a target grey pixel (R5): from colour, Y = floor((2R + 5G + B) / 8) of the channels at depth 8. -/
def Pixel.luma : Pixel → Nat → Nat
  | .grey g, d => g.to d
  | .colour r g b, d => convertDepth ((2 * r.to 8 + 5 * g.to 8 + b.to 8) / 8) 8 d

/-- The channels of a host pixel (R1). The unused byte of H32 does not enter. -/
def hostChannels (f : HostFormat) (v : Nat) : Pixel :=
  match f with
  | .h8 => .grey ⟨8, v % 256⟩
  | .h16 => .colour ⟨5, v / 2048 % 32⟩ ⟨6, v / 32 % 64⟩ ⟨5, v % 32⟩
  | .h32 => .colour ⟨8, v / 65536 % 256⟩ ⟨8, v / 256 % 256⟩ ⟨8, v % 256⟩

/-- The channels of a stored pixel by its format and channel order (R2, R7). -/
def storedChannels (f : StoredFormat) (o : ChannelOrder) (v : Nat) : Pixel :=
  match f with
  | .l4 => .grey ⟨4, v % 16⟩
  | _ =>
    let (d1, d2, d3) := f.depths
    let f1 : Channel := ⟨d1, v / 2 ^ (d2 + d3) % 2 ^ d1⟩
    let f2 : Channel := ⟨d2, v / 2 ^ d3 % 2 ^ d2⟩
    let f3 : Channel := ⟨d3, v % 2 ^ d3⟩
    match o with
    | .rgb => .colour f1 f2 f3
    | .bgr => .colour f3 f2 f1

/-- The stored value of a pixel (R6): the first field most significant, the unused field of C32 zero. -/
def storedValue (f : StoredFormat) (o : ChannelOrder) (p : Pixel) : Nat :=
  match f with
  | .l4 => p.luma 4
  | _ =>
    let (d1, d2, d3) := f.depths
    let (f1, f3) := match o with
      | .rgb => (p.red d1, p.blue d3)
      | .bgr => (p.blue d1, p.red d3)
    f1 * 2 ^ (d2 + d3) + p.green d2 * 2 ^ d3 + f3

/-- The host value of a pixel (R7): the unused byte of H32 is 0. -/
def hostValue (f : HostFormat) (p : Pixel) : Nat :=
  match f with
  | .h8 => p.luma 8
  | .h16 => p.red 5 * 2048 + p.green 6 * 32 + p.blue 5
  | .h32 => p.red 8 * 65536 + p.green 8 * 256 + p.blue 8

/-- The panel value of a pixel (R3, R8). -/
def panelValue (f : PanelFormat) (p : Pixel) : Nat :=
  match f with
  | .p16 => p.red 5 * 2048 + p.green 6 * 32 + p.blue 5
  | .p24 => p.red 8 * 65536 + p.green 8 * 256 + p.blue 8

/-- A host pixel converted to the stored format (R6). -/
def toStored (v : WindowValues) (pixel : Nat) : Nat :=
  storedValue v.storedFormat v.order (hostChannels v.hostFormat pixel)

/-- A stored pixel converted to the host format (R7). -/
def toHost (v : WindowValues) (stored : Nat) : Nat :=
  hostValue v.hostFormat (storedChannels v.storedFormat v.order stored)

/-- A stored pixel converted to the panel format (R8). -/
def toPanel (v : WindowValues) (f : PanelFormat) (stored : Nat) : Nat :=
  panelValue f (storedChannels v.storedFormat v.order stored)

/-- The bytes of a panel pixel on the link (R17 note 3). -/
def panelBytes (f : PanelFormat) (v : Nat) : List Byte :=
  match f with
  | .p16 => [byteOf (v / 256), byteOf v]
  | .p24 => [byteOf (v / 65536), byteOf (v / 256), byteOf v]

/-! ### Pixels of a host beat (R1, R9) -/

/-- Pixel k of a beat's 32 data bits (R1). -/
def beatPixel (f : HostFormat) (data : Word) (k : Nat) : Nat :=
  data.toNat / 256 ^ (f.bytes * k) % 256 ^ f.bytes

/-- The byte enables of pixel k of a beat (R149). -/
def pixelEnables (f : HostFormat) (enables : BitVec 4) (k : Nat) : List Bool :=
  (List.range f.bytes).map fun j => enables.getLsbD (f.bytes * k + j)

/-- The 32 data bits of a read beat from its pixels, pixel 0 in the lowest bytes (R152). -/
def beatData (f : HostFormat) (pixels : List Nat) : Word :=
  BitVec.ofNat 32 (pixels.foldr (fun p rest => p + 256 ^ f.bytes * rest) 0)

/-- Whether a host pixel equals the key (R9): in H32 the unused byte is left out. -/
def equalsKey (f : HostFormat) (key pixel : Nat) : Bool :=
  match f with
  | .h8 | .h16 => pixel == key
  | .h32 => pixel % 16777216 == key

/-- The largest key of a host format (R9). -/
def HostFormat.maxKey : HostFormat → Nat
  | .h8 => 255 | .h16 => 65535 | .h32 => 16777215

/-! ### Mapping and placement (R10, R41) -/

/-- The stored column of logical column x (R41). -/
def WindowValues.storedX (v : WindowValues) (x : Nat) : Nat := if v.mirrorX then v.width - 1 - x else x

/-- The stored row of logical row y (R41). -/
def WindowValues.storedY (v : WindowValues) (y : Nat) : Nat :=
  ((if v.mirrorY then v.height - 1 - y else y) + v.scroll) % v.height

/-- Lane n counted from the first lane of stored row sy, as word address and lane number (R10). -/
def WindowValues.laneAt (v : WindowValues) (sy n : Nat) : Nat × Fin 8 :=
  (v.memBase + sy * v.pitch * 4 + 4 * (n / 8), ⟨n % 8, Nat.mod_lt n (by decide)⟩)

/-- Lane i of logical pixel (x, y) (R10, R41). -/
def WindowValues.pixelLane (v : WindowValues) (x y i : Nat) : Nat × Fin 8 :=
  v.laneAt (v.storedY y) (v.storedX x * v.storedFormat.lanes + i)

/-- The lanes of logical pixel (x, y) holding a stored value: bits 4i+3 to 4i in lane i (R10). -/
def WindowValues.pixelLanes (v : WindowValues) (x y stored : Nat) : List LaneWrite :=
  (List.range v.storedFormat.lanes).map fun i =>
    ⟨(v.pixelLane x y i).1, (v.pixelLane x y i).2, BitVec.ofNat 4 (stored / 16 ^ i)⟩

/-- The words of logical pixel (x, y), the lower address first: one, or two where it straddles (R11, R103). -/
def WindowValues.pixelWords (v : WindowValues) (x y : Nat) : List Nat :=
  let first := (v.pixelLane x y 0).1
  let last := (v.pixelLane x y (v.storedFormat.lanes - 1)).1
  if first = last then [first] else [first, last]

/-- Lane n of a word (R10). -/
def laneOf (w : Word) (n : Fin 8) : Nibble := w.extractLsb' (4 * n.val) 4

/-- The word at an address among words read; 0 if it is not among them. -/
def wordAmong : List (Nat × Word) → Nat → Word
  | [], _ => 0
  | (a, w) :: rest, b => if a = b then w else wordAmong rest b

/-- The stored value of logical pixel (x, y) joined from the lanes of the words read (R7). -/
def WindowValues.pixelFrom (v : WindowValues) (words : List (Nat × Word)) (x y : Nat) : Nat :=
  (List.range v.storedFormat.lanes).foldr
    (fun i rest => (laneOf (wordAmong words (v.pixelLane x y i).1) (v.pixelLane x y i).2).toNat + 16 * rest) 0

/-- Put a word address into a strictly rising list of word addresses. -/
def insertWord (a : Nat) : List Nat → List Nat
  | [] => [a]
  | b :: rest => if a < b then a :: b :: rest else if a = b then b :: rest else b :: insertWord a rest

/-- The distinct addresses of a list in increasing order. -/
def distinctWords (l : List Nat) : List Nat := l.foldr insertWord []

/-! ### Rectangles -/

/-- x0 ≤ x1 < width and y0 ≤ y1 < height (R23). -/
def Rect.within (r : Rect) (width height : Nat) : Bool :=
  r.x0 ≤ r.x1 && r.x1 < width && r.y0 ≤ r.y1 && r.y1 < height

/-- The point lies in the rectangle. -/
def Rect.holds (r : Rect) (x y : Nat) : Bool := r.x0 ≤ x && x ≤ r.x1 && r.y0 ≤ y && y ≤ r.y1

/-- `q` lies wholly inside `r` (R78). -/
def Rect.contains (r q : Rect) : Bool := r.x0 ≤ q.x0 && q.x1 ≤ r.x1 && r.y0 ≤ q.y0 && q.y1 ≤ r.y1

/-- `q` overlaps or touches `r` grown by one pixel on every side (R79). -/
def Rect.adjacent (r q : Rect) : Bool :=
  q.x0 ≤ r.x1 + 1 && r.x0 ≤ q.x1 + 1 && q.y0 ≤ r.y1 + 1 && r.y0 ≤ q.y1 + 1

/-- The bounding box of two rectangles (R79). -/
def Rect.join (r q : Rect) : Rect := ⟨min r.x0 q.x0, min r.y0 q.y0, max r.x1 q.x1, max r.y1 q.y1⟩

/-- The rectangle of the whole window (R33). -/
def WindowValues.full (v : WindowValues) : Rect := ⟨0, 0, v.width - 1, v.height - 1⟩

/-- Pixels of a rectangle. -/
def Rect.pixels (r : Rect) : Nat := (r.x1 - r.x0 + 1) * (r.y1 - r.y0 + 1)

/-- Column of pixel k of a rectangle in row-major order (R103). -/
def Rect.pixelX (r : Rect) (k : Nat) : Nat := r.x0 + k % (r.x1 - r.x0 + 1)

/-- Row of pixel k of a rectangle in row-major order (R103). -/
def Rect.pixelY (r : Rect) (k : Nat) : Nat := r.y0 + k / (r.x1 - r.x0 + 1)

/-! ### Window descriptors (R13) and the open checks (R23 to R25) -/

/-- The fields of a 32-byte descriptor as its bytes stand (R13). -/
structure Descriptor where
  malformed  : Bool
  hostBase   : Nat
  memBase    : Nat
  width      : Nat
  height     : Nat
  pitch      : Nat
  scroll     : Nat
  hostCode   : Nat
  formatPad  : Nat
  storedCode : Nat
  order      : ChannelOrder
  mirrorX    : Bool
  mirrorY    : Bool
  accessCode : Nat
  key        : Option Nat
  clip       : Option Rect
  tracking   : Bool
  origin     : Option (Nat × Nat)
deriving DecidableEq, Repr

/-- Read a descriptor's bytes (R13). A field whose present bit is 0 is absent and its bytes are not read. -/
def parseDescriptor (bs : List Byte) : Descriptor :=
  let formats := byteAt bs 16
  let options := bs.getD 17 0
  { malformed  := bs.length != 32 || sumBytes bs % 256 != 0
    hostBase   := le32At bs 0
    memBase    := le32At bs 4
    width      := le16At bs 8
    height     := le16At bs 10
    pitch      := le16At bs 12
    scroll     := le16At bs 14
    hostCode   := formats % 4
    formatPad  := formats / 4 % 4
    storedCode := formats / 16 % 8
    order      := if formats / 128 = 0 then .rgb else .bgr
    mirrorX    := options.getLsbD 0
    mirrorY    := options.getLsbD 1
    accessCode := options.toNat / 4 % 4
    key        := if options.getLsbD 4 then some (le32At bs 18) else none
    clip       := if options.getLsbD 5 then some (rectAt bs 22) else none
    tracking   := options.getLsbD 6
    origin     := if options.getLsbD 7 then some (pairAt bs 28) else none }

/-- The host span of a window: its pixel bytes rounded up to the next multiple of 4096 (R20). -/
def hostSpanOf (width height : Nat) (f : HostFormat) : Nat :=
  (width * height * f.bytes + (Config.page - 1)) / Config.page * Config.page

/-- The window's pixel bytes; the rest of its span is slack (R20). -/
def WindowValues.pixelBytes (v : WindowValues) : Nat := v.width * v.height * v.hostFormat.bytes

/-- The least pitch: ceil(width × stored bits / 32) (R19). -/
def leastPitch (width : Nat) (f : StoredFormat) : Nat := (width * f.bits + 31) / 32

/-- The values a descriptor gives a window if its codes are listed (R12, R26). -/
def Descriptor.values? (d : Descriptor) : Option WindowValues := do
  let hf ← HostFormat.ofCode d.hostCode
  let sf ← StoredFormat.ofCode d.storedCode
  let am ← AccessMode.ofCode d.accessCode
  pure { hostBase := d.hostBase, hostSpan := hostSpanOf d.width d.height hf, memBase := d.memBase
         width := d.width, height := d.height, hostFormat := hf, storedFormat := sf, order := d.order
         mirrorX := d.mirrorX, mirrorY := d.mirrorY, pitch := d.pitch, scroll := d.scroll, access := am
         key := d.key, clip := d.clip, tracking := d.tracking, origin := d.origin }

/-- The conditions of the range check on a window's values (R23): the values R19 allows. -/
def WindowValues.inRange (v : WindowValues) : Bool :=
  v.hostBase % 4096 == 0 && v.memBase % 4 == 0
  && 1 ≤ v.width && v.width ≤ 4096 && 1 ≤ v.height && v.height ≤ 4096
  && v.width * v.hostFormat.bytes % 4 == 0
  && 1 ≤ v.pitch && v.pitch ≤ 4096 && leastPitch v.width v.storedFormat ≤ v.pitch
  && v.scroll < v.height
  && v.key.all (fun k => k ≤ v.hostFormat.maxKey)
  && v.clip.all (fun c => c.within v.width v.height)
  && (!v.tracking || v.origin.isSome)
  && v.origin.all (fun o => o.1 + v.width - 1 ≤ 4095 && o.2 + v.height - 1 ≤ 4095)

/-- The range check (R23); a malformed descriptor fails it (R13, R27). -/
def Descriptor.rangeCheck (d : Descriptor) : Option WindowValues :=
  if d.malformed || d.formatPad != 0 then none
  else match d.values? with
    | none => none
    | some v => if v.inRange then some v else none

/-- The memory check: memory base + height × pitch × 4 within the memory size (R24). -/
def WindowValues.fitsMemory (v : WindowValues) (size : MemSize) : Bool :=
  v.memBase + v.height * v.pitch * 4 ≤ size.bytes

/-- A host address lies in the window's host range (R20). -/
def WindowValues.claims (v : WindowValues) (a : Nat) : Bool := v.hostBase ≤ a && a < v.hostBase + v.hostSpan

/-- Two host ranges share no byte address (R25). -/
def WindowValues.apart (v w : WindowValues) : Bool :=
  v.hostBase + v.hostSpan ≤ w.hostBase || w.hostBase + w.hostSpan ≤ v.hostBase

/-- The host range check against the windows that are ACTIVE or DRAINING (R25). -/
def Table.hostRangeFree (t : Table) (v : WindowValues) : Bool :=
  v.hostBase + v.hostSpan ≤ 4294967296 && t.windows.toList.all fun w => w.values?.all v.apart

/-- Checks 5 to 7 of R22 in order: the values that open, or the first result that fails. -/
def openChecks (t : Table) (size : MemSize) (bytes : List Byte) : Except Result WindowValues :=
  match (parseDescriptor bytes).rangeCheck with
  | none => .error .badArg
  | some v =>
    if !v.fitsMemory size then .error .range
    else if !t.hostRangeFree v then .error .overlap
    else .ok v

/-- Bits set one at a time: bit i of the number is flag i. -/
def flagBits : List Bool → Nat
  | [] => 0
  | b :: rest => (if b then 1 else 0) + 2 * flagBits rest

/-- The formats byte of a window (R13). -/
def WindowValues.formatsByte (v : WindowValues) : Byte :=
  byteOf (v.hostFormat.code + 16 * v.storedFormat.code + 128 * v.order.code)

/-- The options byte of a window (R13). -/
def WindowValues.optionsByte (v : WindowValues) : Byte :=
  byteOf (flagBits [v.mirrorX, v.mirrorY] + 4 * v.access.code
    + 16 * flagBits [v.key.isSome, v.clip.isSome, v.tracking, v.origin.isSome])

/-- Bytes 0 to 30 of a window's descriptor (R13): the bytes of absent fields are 00h. -/
def WindowValues.descriptorBody (v : WindowValues) : List Byte :=
  le32Of v.hostBase ++ le32Of v.memBase ++ le16Of v.width ++ le16Of v.height ++ le16Of v.pitch ++ le16Of v.scroll
  ++ [v.formatsByte, v.optionsByte]
  ++ (match v.key with | some k => le32Of k | none => le32Of 0)
  ++ (match v.clip with | some c => rectOf c | none => List.replicate 6 0)
  ++ (match v.origin with | some o => pairOf o.1 o.2 | none => List.replicate 3 0)

/-- The byte that makes a list's sum 0 mod 256 (R13). -/
def checkByte (bs : List Byte) : Byte := byteOf (256 - sumBytes bs % 256)

/-- The 32-byte descriptor of a window's current values (R43). -/
def WindowValues.descriptor (v : WindowValues) : List Byte :=
  v.descriptorBody ++ [checkByte v.descriptorBody]

/-- The descriptor QUERY_WINDOW returns (R43): 32 bytes of 00h for an UNUSED window. -/
def Window.descriptor (w : Window) : List Byte :=
  match w.values? with
  | some v => v.descriptor
  | none => List.replicate 32 0

/-! ### Damage and event records on the management port (R15, R16) -/

/-- The eight bytes of a damage record (R15), given whether it is its window's tail. -/
def Record.bytes (r : Record) (isTail : Bool) : List Byte :=
  [byteOf r.window.val, byteOf (flagBits [r.state == .streaming, r.mark, isTail])] ++ rectOf r.rect

/-- The event kind code (R12). -/
def Event.kindCode : Event → Nat
  | .hostRefused .. => 1
  | .hostReadTimeout .. | .drainTimeout .. | .streamTimeout .. => 2
  | .linkFail .. => 3
  | .damageCollapse .. => 4
  | .opDone .. => 5
  | .profileLoaded .. => 6
  | .profileFault .. => 7

/-- The window field of an event (R16). -/
def Event.window? : Event → Option (Fin 8)
  | .hostRefused _ w _ | .hostReadTimeout w _ | .profileFault _ w _ => w
  | .streamTimeout w _ | .linkFail w _ _ | .damageCollapse w => some w
  | .drainTimeout .. | .opDone .. | .profileLoaded .. => none

/-- The address field of an event (R16). -/
def Event.address? : Event → Option Nat
  | .hostRefused _ _ a | .hostReadTimeout _ a | .drainTimeout _ _ a | .streamTimeout _ a => some a
  | .linkFail .. | .damageCollapse .. | .opDone .. | .profileLoaded .. | .profileFault .. => none

/-- The rectangle field of an event (R16). -/
def Event.rect? : Event → Option Rect
  | .linkFail _ r _ => some r
  | .hostRefused .. | .hostReadTimeout .. | .drainTimeout .. | .streamTimeout .. | .damageCollapse .. | .opDone ..
  | .profileLoaded .. | .profileFault .. => none

/-- Detail A of an event (R16). -/
def Event.detailA : Event → Byte
  | .hostRefused r _ _ => byteOf r.code
  | .hostReadTimeout .. => 0
  | .drainTimeout write _ _ => if write then 2 else 1
  | .streamTimeout .. => 3
  | .linkFail _ _ c => byteOf c.code
  | .damageCollapse .. => 0
  | .opDone c _ => c
  | .profileLoaded s => (s.map fun n => byteOf n.val).getD 0xFF
  | .profileFault s _ _ => byteOf s.val

/-- Detail B of an event (R16). -/
def Event.detailB : Event → Byte
  | .drainTimeout _ c _ => byteOf c.code
  | .opDone _ r | .profileFault _ _ r => byteOf r.code
  | .hostRefused .. | .hostReadTimeout .. | .streamTimeout .. | .linkFail .. | .damageCollapse .. | .profileLoaded .. => 0

/-- The sixteen bytes of an event record (R16). -/
def EventRecord.bytes (r : EventRecord) : List Byte :=
  [r.sequence, byteOf r.event.kindCode,
   byteOf (flagBits [r.event.window?.isSome, r.event.address?.isSome, r.lost]),
   byteOf ((r.event.window?.map Fin.val).getD 0)]
  ++ le32Of (r.event.address?.getD 0)
  ++ (match r.event.rect? with | some q => rectOf q | none => List.replicate 6 0)
  ++ [r.event.detailA, r.event.detailB]

/-! ### Panel messages (R17) -/

/-- REGION: C1h, the panel format code, then x, y, w and h (R17, R102). -/
def regionBytes (f : PanelFormat) (origin : Nat × Nat) (r : Rect) : List Byte :=
  [0xC1, byteOf f.code] ++ be16Of (origin.1 + r.x0) ++ be16Of (origin.2 + r.y0)
  ++ be16Of (r.x1 - r.x0 + 1) ++ be16Of (r.y1 - r.y0 + 1)

/-- END: C3h and the checksum (R17, R105). -/
def endBytes (checksum : BitVec 16) : List Byte := 0xC3 :: be16Of checksum.toNat

/-- ABORT: C4h (R17, R110). -/
def abortBytes : List Byte := [0xC4]

/-! ### Profile images (R18) -/

/-- The global settings of a profile image (R18, section 10.2). -/
structure Settings where
  memSize     : MemSize
  waitLimit   : Nat
  highWater   : Nat
  linger      : Nat
  mode        : StreamMode
  panelFormat : PanelFormat
  answerLimit : Nat
  retries     : Nat
  mask        : BitVec 7
deriving DecidableEq, Repr

/-- The factory values (R207). -/
def Settings.factory : Settings :=
  { memSize := .mib4, waitLimit := Config.factoryWaitLimit, highWater := Config.factoryHighWater
    linger := Config.factoryLinger, mode := .off, panelFormat := .p16, answerLimit := Config.factoryAnswerLimit
    retries := Config.factoryRetries, mask := 0x7F }

/-- Bytes 0 to 8 of an image (R18). -/
def Settings.bytes (g : Settings) : List Byte :=
  [byteOf g.memSize.code, byteOf g.waitLimit, byteOf g.highWater, byteOf g.linger, byteOf g.mode.code,
   byteOf g.panelFormat.code, byteOf g.answerLimit, byteOf g.retries, g.mask.zeroExtend 8]

/-- The global settings that an image's bytes 0 to 8 hold, if each is in the range of R18. -/
def parseSettings (bs : List Byte) : Option Settings := do
  let ms ← MemSize.ofCode (byteAt bs 0)
  let sm ← StreamMode.ofCode (byteAt bs 4)
  let pf ← PanelFormat.ofCode (byteAt bs 5)
  if 1 ≤ byteAt bs 1 && byteAt bs 1 ≤ 64 && 1 ≤ byteAt bs 2 && byteAt bs 2 ≤ 16 && 1 ≤ byteAt bs 6
      && byteAt bs 7 ≤ 3 && byteAt bs 8 < 128 then
    some { memSize := ms, waitLimit := byteAt bs 1, highWater := byteAt bs 2, linger := byteAt bs 3, mode := sm
           panelFormat := pf, answerLimit := byteAt bs 6, retries := byteAt bs 7
           mask := BitVec.ofNat 7 (byteAt bs 8) }
  else none

/-- An image is good (R18, R204): its checksum matches, bytes 0 to 8 are in range, and the padding is 00h. -/
def imageGood (image : List Byte) : Bool :=
  sumBytes (image.take 506) % 65536 == le16At image 506
  && (parseSettings image).isSome
  && ((image.drop 10).take 6).all (· == 0)
  && ((image.drop 272).take 234).all (· == 0)

/-- Descriptor n of an image, if its present bit is set (R18, R206). -/
def imageDescriptor (image : List Byte) (n : Fin 8) : Option (List Byte) :=
  if (image.getD 9 0).getLsbD n.val then some ((image.drop (16 + 32 * n.val)).take 32) else none

/-- The state a slot's marks decide, in the order of R18: bytes 508 (started), 509 (finished), 510 (retired) and 511
(damaged). A mark is set when it reads other than FFh. -/
def stateOfMarks (started finished retired damaged : Byte) : SlotState :=
  if damaged != 0xFF then .damaged
  else if started == 0xFF then .blank
  else if finished == 0xFF then .damaged
  else if retired != 0xFF then .retired
  else .written

/-- The captured image of PROFILE_WRITE, bytes 0 to 507 (R198): settings, present map, padding, the descriptors of the
ACTIVE windows, padding and checksum. -/
def captureImage (g : Settings) (t : Table) : List Byte :=
  let present := byteOf (flagBits (t.windows.toList.map fun w => w.active?.isSome))
  let slots := t.windows.toList.flatMap fun w =>
    match w.active? with
    | some v => v.descriptor
    | none => List.replicate 32 0
  let body := g.bytes ++ [present] ++ List.replicate 6 0 ++ slots ++ List.replicate 234 0
  body ++ le16Of (sumBytes body % 65536)

end Sys2Proof.Machine
end

