-- ==== Sys2Proof/Machine/Flags.lean ====
section
/-!
DEFINITION. Every condition and flag the specification computes from the state as it stands: due-ness and urgency
(R53, R54), the presented requests of the arbiter (R131), tails (R76), what is done and due at the host port (R146), the
IRQ level (R189), and what the pins show.
-/

namespace Sys2Proof.Machine

/-! ### Merge queue -/

/-- All eight lanes are valid (R46). -/
def Lanes.complete (l : Lanes) : Bool := l.toList.all Option.isSome

/-- The entry is complete (R46). -/
def Entry.complete (e : Entry) : Bool := e.lanes.complete

/-- A COLLECTING entry is due: flush-marked, or its age has reached the linger time (R53). -/
def Entry.due (e : Entry) (linger : Nat) : Bool := e.state == .collecting && (e.flushMark || linger ≤ e.age)

/-- The entry is the drain entry: in FETCHING, PENDING_WRITE or WRITING (R55). -/
def Entry.draining (e : Entry) : Bool := e.state != .collecting

/-- The drain entry, if the drain slot is taken (R55). -/
def MergeQueue.drain? (q : MergeQueue) : Option Entry := q.entries.find? Entry.draining

/-- The entry for a word (R47). -/
def MergeQueue.entry? (q : MergeQueue) (a : Nat) : Option Entry := q.entries.find? (fun e => e.word == a)

/-- The free entries (R47). -/
def MergeQueue.free (q : MergeQueue) : Nat := Config.queueCapacity - q.entries.length

/-- The words of a beat: the distinct word addresses of its lane set, in increasing order (R48, R50). -/
def beatWords (lanes : List LaneWrite) : List Nat := distinctWords (lanes.map LaneWrite.word)

/-- The words of a beat that have no entry (R49). -/
def MergeQueue.newWords (q : MergeQueue) (lanes : List LaneWrite) : List Nat :=
  (beatWords lanes).filter fun a => (q.entry? a).isNone

/-- Some word of the beat has an entry in WRITING (R49, R52). -/
def MergeQueue.writingWord (q : MergeQueue) (lanes : List LaneWrite) : Bool :=
  (beatWords lanes).any fun a => (q.entry? a).any fun e => e.state == .writing

/-- The beat lacks free entries (R49, second condition). -/
def MergeQueue.lacksRoom (q : MergeQueue) (lanes : List LaneWrite) : Bool := q.free < (q.newWords lanes).length

/-- The two conditions under which a lane set is taken (R49). -/
def MergeQueue.canTake (q : MergeQueue) (lanes : List LaneWrite) : Bool := !q.writingWord lanes && !q.lacksRoom lanes

/-- A beat is waiting for free entries (R49). -/
def State.waitsForRoom (s : State) : Bool :=
  match s.host.action with
  | some (.write _ lanes _) => s.merge.lacksRoom lanes
  | some (.read ..) | none => false

/-- The merge queue is urgent (R54). -/
def State.urgent (s : State) : Bool :=
  s.merge.highWater ≤ s.merge.entries.length || s.waitsForRoom || s.mgmt.slot == some (.softReset .phase3)

/-! ### Damage list -/

/-- A PENDING record of a window. -/
def Record.pendingOf (w : Fin 8) (r : Record) : Bool := r.state == .pending && r.window == w

/-- The record that stands newest in the touch order (R76). -/
def newestOf : List Record → Option Record
  | [] => none
  | r :: rest =>
    match newestOf rest with
    | none => some r
    | some n => if n.touch ≤ r.touch then some r else some n

/-- The tail of a window: its PENDING record newest in the touch order (R76). -/
def DamageList.tail? (l : DamageList) (w : Fin 8) : Option Record := newestOf (l.records.filter (Record.pendingOf w))

/-- The record is its window's tail (R92). -/
def DamageList.isTail (l : DamageList) (r : Record) : Bool := l.tail? r.window == some r

/-! ### Host port -/

/-- Every beat of the record is done, so its answer is due (R143). -/
def HostRecord.done (r : HostRecord) : Bool := r.length ≤ r.outcomes.length

/-- The answer beats of a done record (R147). A WRITE is answered with one beat, ERROR when any beat was refused. -/
def HostRecord.answer (r : HostRecord) : List AnswerBeat :=
  match r.kind with
  | .read => r.outcomes.map fun o => ⟨if o.error then 0 else o.data, o.error⟩
  | .write => [⟨0, r.outcomes.any BeatOutcome.error⟩]

/-- The answer beat on the host bus while the oldest record's answer is going out (R142, R147). -/
def HostPort.answerBeat? (h : HostPort) : Option AnswerBeat :=
  h.sending.bind fun k => h.requests.head?.bind fun r => r.answer[k]?

/-- The answer field of the record at a place of the queue (R143): going out from the start of its answer transfer, due once
every beat is done, not yet due before. -/
def HostPort.answerState? (h : HostPort) (i : Nat) : Option AnswerState :=
  (h.requests[i]?).map fun r =>
    if i = 0 ∧ h.sending.isSome then .goingOut else if r.done then .due else .notYetDue

/-- The oldest record's answer is due and not yet going out (R143, R147). -/
def HostPort.answerDue (h : HostPort) : Bool := h.sending.isNone && h.requests.head?.any HostRecord.done

/-- The head request: the oldest record with a beat not yet done (R146). -/
def HostPort.head? (h : HostPort) : Option HostRecord := h.requests.find? (fun r => !r.done)

/-- Every beat of every accepted request is done, and no beat is in action (R169, phase 2). -/
def HostPort.quiet (h : HostPort) : Bool := h.action.isNone && h.requests.all HostRecord.done

/-- The host port holds a decoded write beat of window n not yet applied or discarded (R30). -/
def HostPort.writeBeatOf (h : HostPort) (n : Fin 8) : Bool :=
  match h.action with
  | some (.write c _ _) => c == .window n
  | some (.read ..) | none => false

/-- The host port holds a decoded write beat (R157). -/
def HostPort.writeBeat (h : HostPort) : Bool :=
  match h.action with
  | some (.write ..) => true
  | some (.read ..) | none => false

/-! ### Management port and loads -/

/-- The start-up load runs: the port takes no frame (R180). -/
def State.startingUp (s : State) : Bool := s.store.load.any fun l => l.kind == .startUp

/-- A SOFT_RESET or a PROFILE_LOAD is in flight (R21, R22, R31, R84, R115). -/
def State.resetOrLoad (s : State) : Bool :=
  match s.mgmt.slot with
  | some (.softReset _) | some (.profileLoad _) => true
  | some (.closeWindow _) | some (.flush ..) | some (.profileWrite _) | none => false

/-- A load waits to apply its settings, so the arbiter makes no grant (R139). -/
def State.loadApplying (s : State) : Bool :=
  s.store.load.any fun l => match l.stage with
    | .applying _ => true
    | .examining _ => false

/-- The port acknowledges its address on a write transfer (R180). -/
def State.acksWrite (s : State) : Bool := !s.startingUp

/-- The port's 7-bit address (R159). -/
def State.i2cAddress (s : State) : BitVec 7 := if s.mgmt.asel then 0x2D else 0x2C

/-- The port acknowledges an address byte (R159, R161, R180, R181): its own address only, on a read in every state, and on a
write while no start-up load runs. -/
def State.acksAddress (s : State) (address : BitVec 7) (read : Bool) : Bool :=
  address == s.i2cAddress && (read || s.acksWrite)

/-- The port acknowledges the next byte of a transfer (R159): up to the 33rd byte of a write transfer it takes part in. -/
def State.acksByte (s : State) : Bool :=
  match s.mgmt.transfer with
  | some (.write frame _) => frame.length < Config.maxFrame
  | some (.read ..) | none => false

/-- The byte the port drives on a read transfer (R161): the content it began with, then 00h. -/
def State.sendingByte (s : State) : Option Byte :=
  match s.mgmt.transfer with
  | some (.read content sent) => some (content.getD sent 0)
  | some (.write ..) | none => none

/-- Byte i of a read transfer: the response buffer, then 00h (R14, R161). -/
def State.readByte (s : State) (i : Nat) : Byte := s.mgmt.response.getD i 0

/-! ### The arbiter's requests (R131) -/

/-- The access in flight belongs to this requester and has not been abandoned. -/
def MemoryPort.serves (p : MemoryPort) (r : Requester) : Bool :=
  p.access.any fun a => a.requester == r && !a.abandoned

/-- The word HOST_READ presents: the next word of the read beat in action (R131, R152). -/
def State.hostRequest? (s : State) : Option Nat :=
  if s.port.serves .hostRead then none
  else match s.host.action with
    | some (.read _ words answered) => words[answered.length]?
    | some (.write ..) | none => none

/-- The eight lanes of an entry as a word (R59). -/
def Lanes.word (l : Lanes) : Word :=
  (l.toList.foldr (fun (n : Option Nibble) rest => (n.getD 0).toNat + 16 * rest) 0 : Nat)

/-- What DRAIN presents: the drain entry's fetch (none), or its write with the word (R56, R131). -/
def State.drainRequest? (s : State) : Option (Nat × Option Word) :=
  if s.port.serves .drain then none
  else match s.merge.drain? with
    | none => none
    | some e => match e.state with
      | .fetching => some (e.word, none)
      | .pendingWrite | .writing => some (e.word, some e.lanes.word)
      | .collecting => none

/-- The values of the window a region reads (R103). -/
def State.regionValues? (s : State) (r : Region) : Option WindowValues := (s.table.windows[r.window]).values?

/-- The words of the pixel a region is reading (R103). -/
def State.regionWords (s : State) (r : Region) : List Nat :=
  match s.regionValues? r with
  | none => []
  | some v => v.pixelWords (r.rect.pixelX r.nextRead) (r.rect.pixelY r.nextRead)

/-- The word STREAM presents (R103, R131): while SENDING, the next word of pixel `nextRead`, once every byte of the pixel
two before it has gone out. -/
def State.streamRequest? (s : State) : Option Nat :=
  if s.port.serves .stream || s.streamer.state != .sending then none
  else match s.streamer.region with
    | none => none
    | some r =>
      if r.nextRead < r.rect.pixels && r.nextRead ≤ r.sent + 1 then (s.regionWords r)[r.words.length]? else none

/-! ### Events and pins -/

/-- The mask enables a kind (R188): bit k − 1 for the kind with code k. -/
def EventQueue.enables (q : EventQueue) (e : Event) : Bool := q.mask.getLsbD (e.kindCode - 1)

/-- IRQ is asserted while a held record's kind is enabled (R189). -/
def State.irq (s : State) : Bool := s.events.records.any fun r => s.events.enables r.event

/-- MSEL is asserted for the whole of an access (R128). -/
def State.msel (s : State) : Bool := s.port.access.isSome

/-- MWE is asserted with it for a write (R128). -/
def State.mwe (s : State) : Bool := s.port.access.any fun a => a.write.isSome

/-- The level of address line MAk, for k from 2 to 23 (R128): a line at or above the configured memory size is low whether
or not an access is in flight, and any other carries bit k of the word address during an access. The specification gives
such a line no level on a free port: none (log 21). -/
def State.memLine (s : State) (k : Nat) : Option Bool :=
  if s.port.memSize.bytes ≤ 2 ^ k then some false else s.port.access.map fun a => a.address.testBit k

/-- The word the device drives on MD: only during a write (R128). -/
def State.memData (s : State) : Option Word := s.port.access.bind Access.write

/-- The panel link is idle (R120, R123): no message goes out and none is owed. -/
def State.linkIdle (s : State) : Bool :=
  s.link.abortsOwed == 0 && match s.streamer.state with
    | .off | .idle | .waitSync | .stalled => true
    | .sending | .awaitAnswer => false

/-- DATA is under way: some and not all of its pixels have gone out (R103, R104). -/
def State.inData (s : State) : Bool :=
  s.link.abortsOwed == 0 && s.streamer.state == .sending
  && s.streamer.region.any fun r => r.begun && 0 < r.sent && r.sent < r.rect.pixels

/-- The level of PSEL (R120): high on an idle link and between END and its answer, low within DATA. None at the bits of a
message that State does not hold (logs 9, 21). -/
def State.psel (s : State) : Option Bool :=
  if s.linkIdle || (s.link.abortsOwed == 0 && s.streamer.state == .awaitAnswer) then some true
  else if s.inData then some false
  else none

/-- The level of PCLK (R120): low on an idle link, between END and its answer, and while DATA waits for a pixel (R104). None
while it can be running (logs 9, 21). -/
def State.pclk (s : State) : Option Bool :=
  if s.linkIdle || (s.link.abortsOwed == 0 && s.streamer.state == .awaitAnswer) then some false
  else if s.inData && s.streamer.region.all (fun r => r.ready.isEmpty) then some false
  else none

/-- The level of PDO (R120, R123): low on an idle link. None elsewhere, where it follows the bits of the messages (logs 9,
21). -/
def State.pdo (s : State) : Option Bool := if s.linkIdle then some false else none

/-- The port takes what a presented request shows now, its address or a beat (R142, R143, R145): HACCEPT is asserted for it.
While an answer is going out the request waits. -/
def State.haccept (s : State) : Bool :=
  s.host.state != .held && s.host.requests.length < Config.requestCapacity && s.host.sending.isNone

/-- A request transfer goes on, so that no answer transfer starts (R142): HVALID is asserted, as it is from a WRITE's address
to its last beat, and the port takes what the host presents. -/
def State.requestGoesOn (s : State) (hvalid : Bool) : Bool := (hvalid || s.host.incoming.isSome) && s.haccept

/-- HANS is asserted for each answer beat, and released at rest (R142, R156). -/
def State.hans (s : State) : Bool := s.host.answerBeat?.isSome

/-- HERR is asserted for an answer beat whose status is ERROR, and released at rest (R142, R147, R156). -/
def State.herr (s : State) : Bool := s.host.answerBeat?.any AnswerBeat.error

/-- What the device drives on HAD: the data of the answer beat, and nothing while HANS is released (R142, R156). -/
def State.had (s : State) : Option Word := s.host.answerBeat?.map AnswerBeat.data

end Sys2Proof.Machine
end

