-- ==== Sys2Proof/Machine/Ops.lean ====
section
/-!
DEFINITION. The named operations on single blocks: posting events (R183 to R185), window records, the response buffer and
the arm (R162, R165), the long-operation slot (R163), the profile store's bytes (R18, R197), the beats of the host port
(R146).
-/

namespace Sys2Proof.Machine

/-- Apply `f` to the first element of a list for which `p` holds. -/
def modifyFirst {α : Type} (p : α → Bool) (f : α → α) : List α → List α
  | [] => []
  | a :: rest => if p a then f a :: rest else a :: modifyFirst p f rest

/-! ### Events (R183 to R185) -/

/-- The lost mark of the newest held record becomes yes (R185). -/
def markLast : List EventRecord → List EventRecord
  | [] => []
  | [r] => [{ r with lost := true }]
  | r :: q :: rest => r :: markLast (q :: rest)

/-- An event arises (R183 to R185): below 16 records it is appended with the counter's value; at 16 it is discarded and
marks the newest record. The counter rises in both cases. -/
def EventQueue.post (q : EventQueue) (e : Event) : EventQueue :=
  if q.records.length < Config.eventCapacity then
    { q with records := q.records ++ [⟨q.counter, e, false⟩], counter := q.counter + 1 }
  else
    { q with records := markLast q.records, counter := q.counter + 1 }

/-- Post an event. -/
def State.post (s : State) (e : Event) : State := { s with events := s.events.post e }

/-- An order in which events of one moment are taken (R186): each takes a place among those after it in the list, and the
free-value counter `k` decides which (log 28). -/
def arrange (k : Nat) : List Event → List Event
  | [] => []
  | [e] => [e]
  | e :: f :: rest => (arrange (k + 1) (f :: rest)).insertIdx (Config.eventPlace k % (rest.length + 2)) e

/-- Post the events of one moment, in an order that the device does not set (R186). One event alone uses no free value. -/
def State.postTogether (s : State) (es : List Event) : State :=
  { s with
    events := (arrange s.freeCount es).foldl EventQueue.post s.events
    freeCount := s.freeCount + (es.length - 1) }

/-! ### Windows -/

/-- Window n (R19). -/
def State.window (s : State) (n : Fin 8) : Window := s.table.windows[n]

/-- Replace window n's record. -/
def State.setWindow (s : State) (n : Fin 8) (w : Window) : State :=
  { s with table := { s.table with windows := s.table.windows.set n w } }

/-! ### Management port (R160, R162, R163, R165) -/

/-- Replace the whole response buffer (R160): a result code and its data. -/
def State.answer (s : State) (r : Result) (data : List Byte) : State :=
  { s with mgmt := { s.mgmt with response := byteOf r.code :: data } }

/-- Set the long-operation slot. -/
def State.setSlot (s : State) (o : Option LongOp) : State := { s with mgmt := { s.mgmt with slot := o } }

/-- Set the arm. -/
def State.setArm (s : State) (a : Option (Fin 4)) : State := { s with mgmt := { s.mgmt with arm := a } }

/-- Set the host port's state (R145). -/
def State.setPort (s : State) (p : PortState) : State := { s with host := { s.host with state := p } }

/-- A frame is taken (R160, R165): the arm as it stood is handed to the command and becomes absent. While the start-up load
runs the port does not acknowledge a write transfer, so no frame is taken and nothing changes (R180; log 19). -/
def State.takeFrame (s : State) (act : Option (Fin 4) → State → State) : State :=
  if s.startingUp then s else act s.mgmt.arm (s.setArm none)

/-- A long operation ends (R163): the slot is emptied and OP_DONE is posted. -/
def State.endLongOp (s : State) (command : Byte) (r : Result) : State := (s.setSlot none).post (.opDone command r)

/-- The command code of an occupant of the slot (R163). -/
def LongOp.command : LongOp → Byte
  | .closeWindow _ => 0x12
  | .flush .. => 0x20
  | .profileWrite _ => 0x61
  | .profileLoad _ => 0x63
  | .softReset _ => 0x0F

/-- The occupant parameter that STATUS shows (R166). -/
def LongOp.parameter : LongOp → Byte
  | .closeWindow n => byteOf n.val
  | .flush sel _ => (sel.map fun n => byteOf n.val).getD 0xFF
  | .profileWrite s | .profileLoad s => byteOf s.val
  | .softReset _ => 0

/-- The phase byte that STATUS shows (R166). -/
def LongOp.phaseByte : LongOp → Byte
  | .softReset p => byteOf p.number
  | .closeWindow _ | .flush .. | .profileWrite _ | .profileLoad _ => 0

/-- Common checks of the commands on an ACTIVE window (R31): the window number, then a reset or load in flight, then the
state. The window and its values if they pass. -/
def State.activeTarget (s : State) (n : Byte) : Except Result (Fin 8 × WindowValues) :=
  match windowNumber n with
  | none => .error .badArg
  | some w =>
    if s.resetOrLoad then .error .busy
    else match (s.window w).active? with
      | none => .error .badState
      | some v => .ok (w, v)

/-! ### Profile store bytes (R18, R197) -/

/-- The byte at an address of the profile store: an unprogrammed byte reads FFh (section 1.7.6). -/
def otpRead : List Host.Cell → Nat → Byte
  | [], _ => 0xFF
  | (k, v) :: rest, a => if k = a then v else otpRead rest a

/-- Put a byte, keeping the canonical form: addresses strictly rising and no byte FFh listed. -/
def otpPut : List Host.Cell → Nat → Byte → List Host.Cell
  | [], a, b => if b = 0xFF then [] else [(a, b)]
  | (k, v) :: rest, a, b =>
    if a < k then (if b = 0xFF then (k, v) :: rest else (a, b) :: (k, v) :: rest)
    else if a = k then (if b = 0xFF then rest else (k, b) :: rest)
    else (k, v) :: otpPut rest a b

/-- Program a byte: bits can only turn from 1 to 0 (section 1.7.6). -/
def otpProgram (m : List Host.Cell) (a : Nat) (b : Byte) : List Host.Cell := otpPut m a (otpRead m a &&& b)

/-- Program consecutive bytes from an address on. -/
def otpProgramAll (m : List Host.Cell) (a : Nat) : List Byte → List Host.Cell
  | [] => m
  | b :: rest => otpProgramAll (otpProgram m a b) (a + 1) rest

/-- The canonical form: addresses strictly rising, and no listed byte equal to what an unlisted address reads as. -/
def otpWf : List Host.Cell → Bool
  | [] => true
  | [(_, v)] => v != 0xFF
  | (k, v) :: (j, w) :: rest => v != 0xFF && decide (k < j) && otpWf ((j, w) :: rest)

/-- The address of a byte of a slot. -/
def slotAddress (s : Fin 4) (offset : Nat) : Nat := Config.slotBytes * s.val + offset

/-- The 512 bytes of a slot (R195). -/
def slotImage (m : List Host.Cell) (s : Fin 4) : List Byte :=
  (List.range Config.slotBytes).map fun i => otpRead m (slotAddress s i)

/-- The state of a slot as its marks decide it (R18). -/
def slotMarks (m : List Host.Cell) (s : Fin 4) : SlotState :=
  stateOfMarks (otpRead m (slotAddress s 508)) (otpRead m (slotAddress s 509)) (otpRead m (slotAddress s 510))
    (otpRead m (slotAddress s 511))

/-- The held state of a slot (R195). -/
def State.heldState (s : State) (n : Fin 4) : SlotState := s.store.held[n]

/-- Change a slot's held state and program a mark of it, writing 00h (R196, R197). -/
def State.markSlot (s : State) (n : Fin 4) (mark : Nat) (h : SlotState) : State :=
  { s with store := { s.store with
      otp := otpProgram s.store.otp (slotAddress n mark) 0x00
      held := s.store.held.set n h } }

/-- Set the load in progress. -/
def State.setLoad (s : State) (l : Option Load) : State := { s with store := { s.store with load := l } }

/-! ### Host port (R143, R146) -/

/-- The current beat is done with an outcome: it joins the head request's record, and no beat is in action (R146). -/
def State.finishBeat (s : State) (o : BeatOutcome) : State :=
  { s with host := { s.host with
      requests := modifyFirst (fun r => !r.done) (fun r => { r with outcomes := r.outcomes ++ [o] }) s.host.requests
      action := none } }

/-- A request refused whole: every beat done with ERROR and data 0 (R144, R145). -/
def refusedOutcomes (length : Nat) : List BeatOutcome := List.replicate length ⟨true, 0⟩

end Sys2Proof.Machine
end

