-- ==== Sys2Proof/Machine/Events.lean ====
section
/-!
DEFINITION. The event commands: EVENTS_READ (R176, R187) and IRQ_MASK (R168, R188). IRQ follows the queue and the mask
as they stand (R189).
-/

namespace Sys2Proof.Machine

/-- The data of EVENTS_READ (R16): the count still held, the count returned, and the records returned. -/
def EventQueue.readData (q : EventQueue) : List Byte :=
  let out := q.records.take Config.eventsPerRead
  byteOf (q.records.length - out.length) :: byteOf out.length :: out.flatMap EventRecord.bytes

/-- EVENTS_READ (R187): up to four records leave from the front. -/
def execEventsRead (s : State) : Host.Outcome State Fault Refusal :=
  .next (s.takeFrame fun _ s =>
    State.answer { s with events := { s.events with records := s.events.records.drop Config.eventsPerRead } } .done
      s.events.readData)

/-- IRQ_MASK (R168): with no byte it reads the mask; with one it sets the mask, or answers BAD_ARG if bit 7 is set. -/
def execIrqMask (mask : Option Byte) (s : State) : Host.Outcome State Fault Refusal :=
  .next (s.takeFrame fun _ s =>
    match mask with
    | none => s.answer .done [s.events.mask.zeroExtend 8]
    | some m =>
      if m.getLsbD 7 then s.answer .badArg []
      else State.answer { s with events := { s.events with mask := m.truncate 7 } } .done [])

end Sys2Proof.Machine
end

