-- ==== Sys2Proof/Machine/MergeQueue.lean ====
section
/-!
DEFINITION. The merge queue's operations (chapter 3): taking a lane set (R48 to R52), choosing the drain entry (R55, R56),
fetch answers (R58), removal (R60, R62), overlay (R63).
-/

namespace Sys2Proof.Machine

/-! ### Lanes -/

/-- No lane valid. -/
def Lanes.none : Lanes := Vector.replicate 8 Option.none

/-- The eight lanes of a word, lane 0 first (R10). -/
def wordLanes (w : Word) : Vector Nibble 8 :=
  #v[laneOf w 0, laneOf w 1, laneOf w 2, laneOf w 3, laneOf w 4, laneOf w 5, laneOf w 6, laneOf w 7]

/-- The lanes a lane set gives for a word (R48). -/
def lanesFor (lanes : List LaneWrite) (a : Nat) : Lanes :=
  lanes.foldl (fun l n => if n.word = a then l.set n.lane (some n.bits) else l) Lanes.none

/-- Later lanes written over earlier ones: a lane already valid is overwritten (R51). -/
def Lanes.merge (old new : Lanes) : Lanes :=
  Vector.zipWith (fun n o => match n with
    | some b => some b
    | Option.none => o) new old

/-- The lanes that are not valid filled from a word; valid lanes keep their data (R58). -/
def Lanes.fill (l : Lanes) (w : Word) : Lanes := Vector.zipWith (fun o b => some (o.getD b)) l (wordLanes w)

/-- A word with each valid lane in place of its own (R63). -/
def Lanes.overlay (l : Lanes) (w : Word) : Word := (l.fill w).word

/-- A memory answer overlaid with the merge queue: the entry of that word, in any of its states (R63). -/
def MergeQueue.overlay (q : MergeQueue) (a : Nat) (w : Word) : Word :=
  match q.entry? a with
  | some e => e.lanes.overlay w
  | Option.none => w

/-! ### Lane arrival (R49 to R52) -/

/-- Lanes merged into an entry (R51). A FETCHING entry that becomes complete before its fetch is granted withdraws the
fetch and becomes PENDING_WRITE (R57). -/
def Entry.mergeLanes (e : Entry) (new : Lanes) (fetchGranted : Bool) : Entry :=
  let lanes := e.lanes.merge new
  { e with
    lanes := lanes
    state := if e.state == .fetching && lanes.complete && !fetchGranted then .pendingWrite else e.state }

/-- The entry a beat creates for a word (R50): COLLECTING, age 0, retry used no. -/
def Entry.create (a : Nat) (lanes : Lanes) (c : Creator) (mark : Bool) : Entry :=
  { word := a, lanes := lanes, creator := c, age := 0, flushMark := mark, retryUsed := false, state := .collecting }

/-- One word of a taken beat: merged into its entry (R51), or a new entry at the end of the order (R50). -/
def MergeQueue.takeWord (c : Creator) (mark fetchGranted : Bool) (lanes : List LaneWrite) (q : MergeQueue) (a : Nat) :
    MergeQueue :=
  match q.entry? a with
  | some _ =>
    let join : Entry → Entry := fun e => e.mergeLanes (lanesFor lanes a) fetchGranted
    { q with entries := modifyFirst (fun e => e.word == a) join q.entries }
  | Option.none => { q with entries := q.entries ++ [Entry.create a (lanesFor lanes a) c mark] }

/-- A lane set taken whole, word by word in increasing address order (R48, R50). -/
def MergeQueue.takeSet (q : MergeQueue) (c : Creator) (mark fetchGranted : Bool) (lanes : List LaneWrite) : MergeQueue :=
  (beatWords lanes).foldl (MergeQueue.takeWord c mark fetchGranted lanes) q

/-- A creator that is a DRAINING window: its new entries are flush-marked (R29, R50). -/
def State.marksNew (s : State) (c : Creator) : Bool :=
  match c with
  | .window n => match s.window n with
    | .draining _ => true
    | .unused | .active _ => false
  | .bypass => false

/-! ### Drain choice (R55, R56) -/

/-- A chosen entry: PENDING_WRITE if complete, else FETCHING (R56). -/
def Entry.chosen (e : Entry) : Entry := { e with state := if e.complete then .pendingWrite else .fetching }

/-- The drain choice (R55): while the slot is free, the oldest COLLECTING entry when urgent, else the oldest due one. -/
def State.chooseDrain (s : State) : State :=
  if s.merge.drain?.isSome then s
  else
    let candidate : Entry → Bool :=
      if s.urgent then fun e => e.state == .collecting else fun e => e.due s.merge.linger
    { s with merge := { s.merge with entries := modifyFirst candidate Entry.chosen s.merge.entries } }

/-! ### Marks, fetch answers, removal -/

/-- Every entry that `p` selects is flush-marked (R28, R65, R73). -/
def MergeQueue.mark (q : MergeQueue) (p : Entry → Bool) : MergeQueue :=
  { q with entries := q.entries.map fun e => if p e then { e with flushMark := true } else e }

/-- Change the drain entry. -/
def MergeQueue.onDrain (q : MergeQueue) (f : Entry → Entry) : MergeQueue :=
  { q with entries := modifyFirst Entry.draining f q.entries }

/-- The fetch answer fills the lanes that are not valid, and the entry becomes PENDING_WRITE (R58). -/
def Entry.fetchAnswer (e : Entry) (w : Word) : Entry := { e with lanes := e.lanes.fill w, state := .pendingWrite }

/-- The first timeout of the drain entry's access (R61): the retry is used; a fetch that finds its entry complete gives way
to the write, and any other access is presented again. -/
def Entry.firstTimeout (e : Entry) : Entry :=
  { e with
    retryUsed := true
    state := if e.state == .fetching && e.complete then .pendingWrite else e.state }

/-- A removed entry leaves the wait set of a FLUSH in flight (R66). -/
def LongOp.dropWord (o : LongOp) (a : Nat) : LongOp :=
  match o with
  | .flush sel ws => .flush sel (ws.filter fun b => b != a)
  | .closeWindow n => .closeWindow n
  | .profileWrite s => .profileWrite s
  | .profileLoad s => .profileLoad s
  | .softReset p => .softReset p

/-- The drain entry is removed and the drain slot is free (R60, R62). -/
def State.removeDrain (s : State) : State :=
  match s.merge.drain? with
  | Option.none => s
  | some e =>
    { s with
      merge := { s.merge with entries := s.merge.entries.eraseP Entry.draining }
      mgmt := { s.mgmt with slot := s.mgmt.slot.map fun o => o.dropWord e.word } }

end Sys2Proof.Machine
end

