-- ==== Sys2Proof/Machine/DamageList.lean ====
section
/-!
DEFINITION. The damage list's operations (chapter 4): insertion by containment, growth, append and collapse (R78 to R82),
removals and replacement (R85 to R90), marks (R91).
-/

namespace Sys2Proof.Machine

/-- Replace the records that `p` selects by one record at the position of the earliest of them (R75). -/
def replaceAll (p : Record → Bool) (new : Record) : List Record → List Record
  | [] => []
  | r :: rest => if p r then new :: rest.filter (fun q => !p q) else r :: replaceAll p new rest

/-- The bounding box of a rectangle and the rectangles of records (R81). -/
def boundingBox (q : Rect) (rs : List Record) : Rect := rs.foldl (fun b r => b.join r.rect) q

/-- The bounding box of records; of none, the rectangle (0, 0, 0, 0), which no collapse uses. -/
def boundingBoxOf : List Record → Rect
  | [] => ⟨0, 0, 0, 0⟩
  | r :: rest => boundingBox r.rect rest

/-- The PENDING records of a window. -/
def DamageList.pendingOf (l : DamageList) (w : Fin 8) : List Record := l.records.filter (Record.pendingOf w)

/-- All PENDING records of a window replaced by one PENDING record with a rectangle (R81, R82): marked if any of them was,
at the earliest position, newest in the touch order. -/
def DamageList.collapse (l : DamageList) (w : Fin 8) (r : Rect) : DamageList :=
  { records := replaceAll (Record.pendingOf w)
      ⟨w, r, .pending, (l.pendingOf w).any Record.mark, l.nextTouch⟩ l.records
    nextTouch := l.nextTouch + 1 }

/-- Append a PENDING, unmarked record, newest in the touch order (R80). -/
def DamageList.append (l : DamageList) (w : Fin 8) (r : Rect) : DamageList :=
  { records := l.records ++ [⟨w, r, .pending, false, l.nextTouch⟩], nextTouch := l.nextTouch + 1 }

/-- The tail grows to the bounding box of itself and `q` (R79): position, state and mark stay, and it moves to the newest
touch place. -/
def DamageList.grow (l : DamageList) (t : Record) (q : Rect) : DamageList :=
  { records := modifyFirst (fun r => r == t) (fun r => { r with rect := r.rect.join q, touch := l.nextTouch }) l.records
    nextTouch := l.nextTouch + 1 }

/-- The window with the most PENDING records, the lowest number among equals (R82). -/
def DamageList.busiest (l : DamageList) : Fin 8 :=
  allWindows.foldl (fun b w => if (l.pendingOf b).length < (l.pendingOf w).length then w else b) 0

/-- Insertion of a rectangle for a window (R78): the first that applies of containment, growth (R79), append (R80) and
collapse of the window (R81) or of another (R82). With it the window a collapse names (R83). -/
def DamageList.insert (l : DamageList) (w : Fin 8) (q : Rect) : DamageList × Option (Fin 8) :=
  if (l.pendingOf w).any (fun r => r.rect.contains q) then (l, none)
  else match (l.tail? w).filter (fun t => t.rect.adjacent q) with
    | some t => (l.grow t q, none)
    | none =>
      if l.records.length < Config.damageCapacity then (l.append w q, none)
      else if 2 ≤ (l.pendingOf w).length then (l.collapse w (boundingBox q (l.pendingOf w)), some w)
      else ((l.collapse l.busiest (boundingBoxOf (l.pendingOf l.busiest))).append w q, some l.busiest)

/-- Remove the records that `p` selects (R85, R86, R90). -/
def DamageList.remove (l : DamageList) (p : Record → Bool) : DamageList :=
  { l with records := l.records.filter fun r => !p r }

/-- All records of a window, in either state, replaced by one full-window PENDING record (R33, R87): at the earliest
position, marked if any of them was, newest in the touch order. -/
def DamageList.replaceWindow (l : DamageList) (w : Fin 8) (full : Rect) : DamageList :=
  { records := replaceAll (fun r => r.window == w)
      ⟨w, full, .pending, l.records.any (fun r => r.window == w && r.mark), l.nextTouch⟩ l.records
    nextTouch := l.nextTouch + 1 }

/-- Every PENDING record takes the pass mark (R91). -/
def DamageList.markPending (l : DamageList) : DamageList :=
  { l with records := l.records.map fun r => if r.state == .pending then { r with mark := true } else r }

/-- The first record that `p` selects is taken for streaming (R88). -/
def DamageList.take (l : DamageList) (p : Record → Bool) : DamageList :=
  { l with records := modifyFirst p (fun r => { r with state := .streaming }) l.records }

/-- The STREAMING record returns to PENDING with its fields and its touch place (R89). -/
def DamageList.returnStreaming (l : DamageList) : DamageList :=
  { l with records := l.records.map fun r => { r with state := .pending } }

/-- The STREAMING record leaves the list (R90). -/
def DamageList.dropStreaming (l : DamageList) : DamageList := l.remove fun r => r.state == .streaming

/-- Insert a rectangle (R78). -/
def State.insertRect (s : State) (w : Fin 8) (q : Rect) : State := { s with damage := (s.damage.insert w q).1 }

/-- The DAMAGE_COLLAPSE that an insertion posts, if it collapses a window (R83). -/
def State.collapseEvent (s : State) (w : Fin 8) (q : Rect) : List Event :=
  ((s.damage.insert w q).2.map Event.damageCollapse).toList

/-- Insert a rectangle and post DAMAGE_COLLAPSE for a collapse (R78, R83). -/
def State.insertDamage (s : State) (w : Fin 8) (q : Rect) : State :=
  (s.collapseEvent w q).foldl State.post (s.insertRect w q)

end Sys2Proof.Machine
end

