-- ==== Sys2Proof/Machine/Streamer.lean ====
section
/-!
DEFINITION. The refresh streamer's shared operations (chapter 5): taking a record (R98 to R100), attempts (R102), the
region end (R101), aborts (R110), answer failures (R107, R108), modes (R116 to R118).
-/

namespace Sys2Proof.Machine

/-- The region progress at the start of an attempt (R102): first pixel, checksum 0, REGION not yet begun. -/
def Region.fresh (w : Fin 8) (r : Rect) : Region :=
  { window := w, rect := r, begun := false, nextRead := 0, words := [], ready := [], sent := 0, checksum := 0 }

/-- REGION of the attempt begins on the link, unless an ABORT message is still going out (R102, R110). The fields of REGION
are those of R102; a window with a region has a panel origin (R19). -/
def State.startRegion (s : State) : State :=
  match s.streamer.region with
  | none => s
  | some r =>
    if s.link.abortsOwed = 0 ∧ r.begun = false then
      let origin := ((s.regionValues? r).bind WindowValues.origin).getD (0, 0)
      { s with
        streamer := { s.streamer with region := some { r with begun := true } }
        link := { s.link with log := s.link.log ++ [.regionBegun (regionBytes s.streamer.panelFormat origin r.rect)] } }
    else s

/-- An attempt at a region begins (R102): SENDING, with the progress reset. -/
def State.beginAttempt (s : State) (w : Fin 8) (r : Rect) : State :=
  State.startRegion
    { s with streamer := { s.streamer with state := .sending, region := some (Region.fresh w r), answerTimer := none } }

/-- The streamer takes the first record that `p` selects, if there is one (R88, R98 to R100, R102). -/
def State.takeRecord? (s : State) (p : Record → Bool) : Option State :=
  (s.damage.records.find? p).map fun r =>
    State.beginAttempt
      { s with damage := s.damage.take p, streamer := { s.streamer with retriesUsed := 0 } } r.window r.rect

/-- A PENDING record (R98). -/
def Record.isPending (r : Record) : Bool := r.state == .pending

/-- A PENDING record that carries the pass mark (R100). -/
def Record.isMarked (r : Record) : Bool := r.state == .pending && r.mark

/-- In IDLE the streamer takes the first PENDING record as soon as one exists (R98). -/
def State.takeIfIdle (s : State) : State :=
  if s.streamer.state = .idle then (s.takeRecord? Record.isPending).getD s else s

/-- While a pass is open the first marked PENDING record is taken; with none the pass is over (R99, R100). -/
def State.continuePass (s : State) : State :=
  (s.takeRecord? Record.isMarked).getD
    { s with streamer := { s.streamer with passOpen := false, state := .waitSync } }

/-- A region end (R101): the current record is cleared, the timer stopped, and the next step chosen by the mode. -/
def State.regionEnd (s : State) : State :=
  let s := { s with streamer := { s.streamer with region := none, answerTimer := none } }
  match s.streamer.mode with
  | .free => State.takeIfIdle { s with streamer := { s.streamer with state := .idle } }
  | .gated =>
    if s.streamer.passOpen then s.continuePass else { s with streamer := { s.streamer with state := .waitSync } }
  | .off => { s with streamer := { s.streamer with state := .off } }

/-- What an abort does on the link, to the timer and to the reads (R110): ABORT is owed, the timer is stopped, an
ungranted STREAM read is withdrawn (R131, R132) and one in flight is abandoned (R138). The region is cleared. -/
def State.abortRegion (s : State) : State :=
  { s with
    link := { s.link with abortsOwed := s.link.abortsOwed + 1 }
    streamer := { s.streamer with region := none, answerTimer := none }
    port := { s.port with
      streamWait := if s.streamRequest?.isSome then 0 else s.port.streamWait
      access := s.port.access.map fun a => if a.requester == .stream then { a with abandoned := true } else a } }

/-- The current record belongs to window n (R111). -/
def State.regionOf (s : State) (n : Fin 8) : Bool := s.streamer.region.any fun r => r.window == n

/-- The streamer stops in STALLED, with no current record and no pass (R108, R112). -/
def State.stall (s : State) : State :=
  { s with
    damage := s.damage.returnStreaming
    streamer := { s.streamer with state := .stalled, passOpen := false, region := none, answerTimer := none } }

/-- An answer failure in AWAIT_ANSWER (R107, R108): a resend while retries remain, else the record returns to PENDING, the
streamer stalls and LINK_FAIL is posted. -/
def State.answerFailure (s : State) (cause : LinkCause) : State :=
  match s.streamer.region with
  | none => s
  | some r =>
    if s.streamer.retriesUsed < s.streamer.retries then
      State.beginAttempt
        { s with streamer := { s.streamer with retriesUsed := s.streamer.retriesUsed + 1 } } r.window r.rect
    else s.stall.post (.linkFail r.window r.rect cause)

/-- The region is aborted and its record returns to PENDING, and the streamer is OFF (R117, R124). -/
def State.abortToOff (s : State) : State :=
  let s' := if s.streamer.region.isSome then { s.abortRegion with damage := s.damage.returnStreaming } else s
  { s' with streamer := { s'.streamer with state := .off, mode := .off, passOpen := false, region := none } }

/-- A new mode is set (R116 to R118). Pass open becomes no unless the new mode is GATED. -/
def State.setMode (s : State) (m : StreamMode) : State :=
  match m with
  | .off => s.abortToOff
  | .free =>
    let s := { s with streamer := { s.streamer with mode := .free, passOpen := false } }
    match s.streamer.state with
    | .off | .waitSync => State.takeIfIdle { s with streamer := { s.streamer with state := .idle } }
    | .idle | .sending | .awaitAnswer | .stalled => s
  | .gated =>
    let s := { s with streamer := { s.streamer with mode := .gated } }
    match s.streamer.state with
    | .off | .idle => { s with streamer := { s.streamer with state := .waitSync } }
    | .waitSync | .sending | .awaitAnswer | .stalled => s

/-- A scroll change reaches the damage list and the streamer (R33, R111): with tracking on, a region of the window is
aborted, the window's records are replaced by one full-window record, or the full rectangle is inserted. -/
def State.scrollDamage (s : State) (n : Fin 8) (v : WindowValues) : State :=
  if !v.tracking then s
  else if s.regionOf n then
    State.regionEnd { s.abortRegion with damage := s.damage.replaceWindow n v.full }
  else if s.damage.records.any (fun r => r.window == n) then
    { s with damage := s.damage.replaceWindow n v.full }
  else (s.insertDamage n v.full).takeIfIdle

end Sys2Proof.Machine
end

