-- ==== Sys2Proof/Machine/Settle.lean ====
section
/-!
DEFINITION. What comes about at the same moment as a command because a condition now holds (log 6): the end of a FLUSH
(R66) and of a close (R30), the phases of SOFT_RESET (R169), the drain choice (R55), a waiting beat taken at a removal
(R49, R60), and the damage run of a taken beat (R77).
-/

namespace Sys2Proof.Machine

/-! ### Ends of long operations -/

/-- The end of a FLUSH whose wait set is empty (R66): the slot is emptied. -/
def State.flushEnd? (s : State) : Option State :=
  match s.mgmt.slot with
  | some (.flush _ []) => some (s.setSlot none)
  | some (.flush _ (_ :: _)) | some (.closeWindow _) | some (.profileWrite _) | some (.profileLoad _)
  | some (.softReset _) | none => none

/-- The drain of window n is complete (R30): no entry created by it remains and no decoded write beat of it waits. -/
def State.drainComplete (s : State) (n : Fin 8) : Bool :=
  s.merge.entries.all (fun e => e.creator != .window n) && !s.host.writeBeatOf n

/-- The end of a close whose drain is complete (R30): the window is UNUSED with its fields absent, and the slot is
emptied. -/
def State.closeEnd? (s : State) : Option State :=
  match s.mgmt.slot with
  | some (.closeWindow n) => if s.drainComplete n then some ((s.setWindow n .unused).setSlot none) else none
  | some (.flush ..) | some (.profileWrite _) | some (.profileLoad _) | some (.softReset _) | none => none

/-- The OP_DONE of a FLUSH and of a close (R30, R66). -/
def flushDone : Event := .opDone 0x20 .done
def closeDone : Event := .opDone 0x12 .done

/-- The FLUSH or close in the slot ends now, with this OP_DONE (R30, R66). -/
def State.longOpEnd? (s : State) : Option (State × Event) :=
  match s.flushEnd? with
  | some t => some (t, flushDone)
  | none => s.closeEnd?.map fun t => (t, closeDone)

/-- Phase 2 of a SOFT_RESET ends when every beat of the accepted requests is done; phase 3 flush-marks every entry (R73,
R169). The queue is urgent for as long as the slot shows phase 3 (R54). -/
def State.endPhase2 (s : State) : State :=
  if s.mgmt.slot = some (.softReset .phase2) ∧ s.host.quiet then
    State.setSlot { s with merge := s.merge.mark fun _ => true } (some (.softReset .phase3))
  else s

/-- Phase 4: the streamer aborts any region in flight and goes to OFF (R124). -/
def State.resetPhase4 (s : State) : State := s.abortToOff

/-- Phase 5: the damage list and the event queue are emptied, the counter and the mask kept, the arm is cleared and the
staging descriptor becomes EMPTY (R45, R95, R165, R192). -/
def State.resetPhase5 (s : State) : State :=
  { s with
    damage := .atReset
    events := { s.events with records := [] }
    mgmt := { s.mgmt with arm := none }
    table := { s.table with staging := none } }

/-- Phase 6: every window becomes UNUSED (R45). -/
def State.resetPhase6 (s : State) : State :=
  { s with table := { s.table with windows := Vector.replicate 8 .unused } }

/-- Phase 7 begins: the auto-load examines slot 3 (R208, R210). -/
def State.resetPhase7 (s : State) : State :=
  (s.setSlot (some (.softReset .phase7))).setLoad (some ⟨.softReset, .examining 3⟩)

/-- Phase 3 of a SOFT_RESET ends when the merge-queue count is 0; phases 4 to 6 follow at once and phase 7 begins
(R169). -/
def State.endPhase3 (s : State) : State :=
  if s.mgmt.slot = some (.softReset .phase3) ∧ s.merge.entries = [] then
    s.resetPhase4.resetPhase5.resetPhase6.resetPhase7
  else s

/-- Everything whose condition now holds: the end of a FLUSH or close, phases of a SOFT_RESET, and the drain choice over
the entries as they then stand (R30, R50, R55, R60, R66, R169). The events of the command's own act, and the OP_DONE of what
ends with it, arise at one moment (R186; log 28); where phase 5 of a SOFT_RESET follows, it empties them with the queue
(R192). -/
def State.settle (s : State) (es : List Event) : State :=
  match s.longOpEnd? with
  | some (t, e) => (t.postTogether (es ++ [e])).chooseDrain
  | none => (s.postTogether es).endPhase2.endPhase3.chooseDrain

/-! ### Lane arrival -/

/-- What the damage run of a taken window beat inserts (R77): with tracking on and the window ACTIVE, the run, or the whole
window when the scroll has changed since the decode. -/
def State.runDamage? (s : State) : Option (Carried × Rect) → Option (Fin 8 × Rect)
  | none => none
  | some (c, run) =>
    if !c.values.tracking then none
    else (s.window c.window).active?.map fun v => (c.window, if v.scroll = c.values.scroll then run else v.full)

/-- The run's rectangle is inserted (R77), and the streamer takes a record at once in IDLE (R98). -/
def State.insertRun (s : State) (run : Option (Carried × Rect)) : State :=
  match s.runDamage? run with
  | some (w, q) => (s.insertRect w q).takeIfIdle
  | none => s

/-- The DAMAGE_COLLAPSE of the run's insertion, if it collapses a window (R83). -/
def State.runEvents (s : State) (run : Option (Carried × Rect)) : List Event :=
  match s.runDamage? run with
  | some (w, q) => s.collapseEvent w q
  | none => []

/-- A lane set is taken whole (R48, R50, R51), its run is inserted (R77, R151), and its beat is done with OK (R146). -/
def State.arrive (s : State) (c : Creator) (lanes : List LaneWrite) (run : Option (Carried × Rect)) : State :=
  let q := s.merge.takeSet c (s.marksNew c) (s.port.serves .drain) lanes
  (State.insertRun { s with merge := q } run).finishBeat ⟨false, 0⟩

/-- A waiting lane set is taken when both conditions of R49 hold, with the event of its run, and waits on otherwise. -/
def State.takeWaiting (s : State) : State × List Event :=
  match s.host.action with
  | some (.write c lanes run) => if s.merge.canTake lanes then (s.arrive c lanes run, s.runEvents run) else (s, [])
  | some (.read ..) | none => (s, [])

/-- What a removal brings about (R49, R60, R62): a waiting beat is taken, then the conditions that the removal may have
made true are tested, and the drain choice is made over the entries as they stand after the creation (R50). The removal's
own event, that of the beat and the OP_DONE of what ends arise at one moment (R186; log 28). -/
def State.afterRemoval (s : State) (es : List Event) : State := s.takeWaiting.1.settle (es ++ s.takeWaiting.2)

end Sys2Proof.Machine
end

