-- ==== Sys2Proof/Machine/HostBus.lean ====
section
/-!
DEFINITION. The host port (chapter 7): acceptance of requests (R142 to R145), decode of beats (R37 to R40, R146 to R155),
lane arrival (R49), answers (R147).
-/

namespace Sys2Proof.Machine

/-! ### Acceptance -/

/-- The request's kind, word-aligned address (R142), length and write beats. A beat that a WRITE term lacks is one with no
byte enabled (log 24). -/
def recordOf (r : HostRequest) : HostRecord :=
  match r with
  | .read address hlen =>
    ⟨.read, address.toNat / 4 * 4, hlen.toNat + 1, [], none, []⟩
  | .write address hlen beats =>
    ⟨.write, address.toNat / 4 * 4, hlen.toNat + 1,
      (List.range (hlen.toNat + 1)).map fun i => beats.getD i ⟨0, 0⟩, none, []⟩

/-- The whole refusal of a request at acceptance (R144, R145): WRAP when its last beat passes FFFFFFFCh, else RESETTING
while the port is REFUSING. -/
def State.wholeRefusal (s : State) (r : HostRecord) : Option RefuseReason :=
  if 0xFFFFFFFC < r.address + 4 * (r.length - 1) then some .wrap
  else if s.host.state = .refusing then some .resetting
  else none

/-- A record joins the request queue (R143). -/
def State.enqueue (s : State) (r : HostRecord) : State :=
  { s with host := { s.host with requests := s.host.requests ++ [r] } }

/-- HOST_REQUEST_ACCEPT (R142 to R145). While the port is HELD or holds 8 records, and while an answer is going out, it takes
no request, and the host's request waits. Amid the transfer of a WRITE no other request is on the bus (R142; log 5). -/
def execHostRequestAccept (r : HostRequest) (s : State) : Host.Outcome State Fault Refusal :=
  .next (if !s.haccept || s.host.incoming.isSome then s
    else
      let record := recordOf r
      match s.wholeRefusal record with
      | none => s.enqueue record
      | some reason =>
        State.post
          (s.enqueue { record with refusal := some reason, outcomes := refusedOutcomes record.length })
          (.hostRefused reason none record.address))

/-! ### Decode (R37 to R40) -/

/-- The decode of a beat (R37, R38). -/
inductive Decoded where
  | refused (reason : RefuseReason) (window : Option (Fin 8))
  | slack
  | pixels (carried : Carried)
  | bypass
deriving DecidableEq, Repr

/-- The first window that `values` gives values for which claim a host address. -/
def Table.claiming (t : Table) (values : Window → Option WindowValues) (a : Nat) : Option (Fin 8 × WindowValues) :=
  allWindows.findSome? fun n =>
    ((values (t.windows[n])).filter fun v => v.claims a).map fun v => (n, v)

/-- The values of a DRAINING window. -/
def Window.draining? : Window → Option WindowValues
  | .draining v => some v
  | .unused | .active _ => none

/-- The decode of a window beat (R38, R39): access, then slack, then pixels at the logical position of its offset. -/
def decodeIn (n : Fin 8) (v : WindowValues) (kind : RequestKind) (a : Nat) : Decoded :=
  let o := a - v.hostBase
  if v.access = .readOnly ∧ kind = .write then .refused .readOnly (some n)
  else if v.access = .writeOnly ∧ kind = .read then .refused .writeOnly (some n)
  else if v.pixelBytes ≤ o then .slack
  else
    let i := o / v.hostFormat.bytes
    .pixels ⟨n, v, i % v.width, i / v.width⟩

/-- The decode of a beat at a host address (R37): an ACTIVE window, a DRAINING window, memory, or nothing. -/
def State.decode (s : State) (kind : RequestKind) (a : Nat) : Decoded :=
  match s.table.claiming Window.active? a with
  | some (n, v) => decodeIn n v kind a
  | none =>
    match s.table.claiming Window.draining? a with
    | some (n, _) => .refused .draining (some n)
    | none => if a < s.port.memSize.bytes then .bypass else .refused .outOfMemory none

/-! ### Action (R148 to R155) -/

/-- Some pixel of the beat has some bytes enabled and others not (R149). -/
def partlyEnabled (f : HostFormat) (enables : BitVec 4) : Bool :=
  (List.range f.perBeat).any fun k => (pixelEnables f enables k).any id && !(pixelEnables f enables k).all id

/-- Pixel k of a write beat is applied: enabled, inside the clip, not equal to the key (R149). -/
def Carried.applies (c : Carried) (b : WriteBeat) (k : Nat) : Bool :=
  (pixelEnables c.values.hostFormat b.enables k).all id
  && c.values.clip.all (fun r => r.holds (c.x + k) c.y)
  && !(c.values.key.any fun key => equalsKey c.values.hostFormat key (beatPixel c.values.hostFormat b.data k))

/-- The pixels of a write beat that are applied (R149). -/
def Carried.applied (c : Carried) (b : WriteBeat) : List Nat :=
  (List.range c.values.hostFormat.perBeat).filter (c.applies b)

/-- The lane set of a window write beat (R6, R149). -/
def Carried.lanes (c : Carried) (b : WriteBeat) : List LaneWrite :=
  (c.applied b).flatMap fun k =>
    c.values.pixelLanes (c.x + k) c.y (toStored c.values (beatPixel c.values.hostFormat b.data k))

/-- The run of a window write beat (R77): from the lowest to the highest applied pixel of its row. -/
def Carried.run (c : Carried) (b : WriteBeat) : Rect :=
  ⟨c.x + (c.applied b).headD 0, c.y, c.x + (c.applied b).getLastD 0, c.y⟩

/-- The lane set of a bypass write beat (R40, R154): each enabled byte k gives lanes 2k and 2k+1. -/
def bypassLanes (a : Nat) (b : WriteBeat) : List LaneWrite :=
  (List.finRange 8).filterMap fun n =>
    if b.enables.getLsbD (n.val / 2) then some ⟨a, n, laneOf b.data n⟩ else none

/-- The words of a window read beat in increasing address order (R152). -/
def Carried.words (c : Carried) : List Nat :=
  distinctWords ((List.range c.values.hostFormat.perBeat).flatMap fun k => c.values.pixelWords (c.x + k) c.y)

/-- The data of a window read beat from its overlaid words (R7, R152). -/
def Carried.data (c : Carried) (words : List (Nat × Word)) : Word :=
  beatData c.values.hostFormat
    ((List.range c.values.hostFormat.perBeat).map fun k => toHost c.values (c.values.pixelFrom words (c.x + k) c.y))

/-- Put a decoded beat into action. -/
def State.setAction (s : State) (a : BeatAction) : State := { s with host := { s.host with action := some a } }

/-- A refused beat (R150): done with ERROR and data 0, and HOST_REFUSED is posted. -/
def State.refuseBeat (s : State) (reason : RefuseReason) (window : Option (Fin 8)) (a : Nat) : State × List Event :=
  (s.finishBeat ⟨true, 0⟩, [.hostRefused reason window a])

/-- A lane set handed to the merge queue; an empty one is done at once with OK (R149, R154). -/
def State.handOver (s : State) (c : Creator) (lanes : List LaneWrite) (run : Option (Carried × Rect)) : State :=
  if lanes.isEmpty then s.finishBeat ⟨false, 0⟩ else s.setAction (.write c lanes run)

/-- A write beat carried out by its decode (R148, R149, R154), and the event it raises. -/
def State.carryWrite (s : State) (d : Decoded) (a : Nat) (b : WriteBeat) : State × List Event :=
  match d with
  | .refused reason w => s.refuseBeat reason w a
  | .slack => (s.finishBeat ⟨false, 0⟩, [])
  | .pixels c =>
    if partlyEnabled c.values.hostFormat b.enables then s.refuseBeat .partialPixel (some c.window) a
    else (s.handOver (.window c.window) (c.lanes b) (some (c, c.run b)), [])
  | .bypass => (s.handOver .bypass (bypassLanes a b) none, [])

/-- A read beat carried out by its decode (R150, R152, R155), and the event it raises. -/
def State.carryRead (s : State) (d : Decoded) (a : Nat) : State × List Event :=
  match d with
  | .refused reason w => s.refuseBeat reason w a
  | .slack => (s.finishBeat ⟨false, 0⟩, [])
  | .pixels c => (s.setAction (.read (some c) c.words []), [])
  | .bypass => (s.setAction (.read none [a] []), [])

/-- The current beat of a record is decoded and carried out (R146). Its address is the record's plus 4 for each beat
before it (R142). -/
def State.decodeBeat (s : State) (r : HostRecord) : State × List Event :=
  let k := r.outcomes.length
  let a := r.address + 4 * k
  match r.kind with
  | .write => s.carryWrite (s.decode .write a) a (r.beats.getD k ⟨0, 0⟩)
  | .read => s.carryRead (s.decode .read a) a

/-- BEAT_DECODE (R146): with no beat in action and the port not HELD (R145), the current beat of the head request is decoded
and carried out; what then holds comes about (R54, R169). With no beat to decode it does not arise (log 5). -/
def execBeatDecode (s : State) : Host.Outcome State Fault Refusal :=
  .next (if s.host.state = .held ∨ s.host.action.isSome then s
    else match s.host.head? with
      | none => s
      | some r => (s.decodeBeat r).1.settle (s.decodeBeat r).2)

/-- LANE_ARRIVAL (R49, R151): the lane set in action is taken whole when both conditions hold; it waits on otherwise. -/
def execLaneArrival (s : State) : Host.Outcome State Fault Refusal :=
  .next (match s.host.action with
    | some (.write c lanes run) => if s.merge.canTake lanes then (s.arrive c lanes run).settle (s.runEvents run) else s
    | some (.read ..) | none => s)

/-- HOST_ANSWER_TRANSFER (R143, R147): the oldest record's answer, once due, has gone out whole, and the record leaves the
queue. With none due, and while a WRITE under way keeps HVALID asserted and its beats are taken (R142), it does not arise
(log 5). -/
def execHostAnswerTransfer (s : State) : Host.Outcome State Fault Refusal :=
  .next (match s.host.requests with
    | [] => s
    | r :: rest =>
      if r.done && !s.requestGoesOn false then
        { s with host := { s.host with requests := rest, answers := s.host.answers ++ [r.answer], sending := none } }
      else s)

end Sys2Proof.Machine
end

