-- ==== Sys2Proof/Machine/Start.lean ====
section
/-!
DEFINITION. Power-on and the RESET pin (R209), and loads: the examination of a slot (R204), the application of global
settings (R205) and the opening of windows (R206), and the ends of a load (R208 to R211).
-/

namespace Sys2Proof.Machine

/-! ### Power-on and RESET pin -/

/-- The slot bytes when power fails or the RESET pin is asserted (R201): a programming in progress stops where it stands,
so each of its bytes holds the bits that had been turned to 0 by then, which are free (log 14). -/
def ProfileStore.interrupted (p : ProfileStore) (freeCount : Nat) : List Host.Cell :=
  match p.programming with
  | none => p.otp
  | some w =>
    otpProgramAll p.otp (slotAddress w.slot 0)
      (w.image.zipIdx.map fun c => c.1 ||| Config.interruptedBits (Config.imageBytes * freeCount + c.2))

/-- The held states derived from the marks (R195). -/
def heldFromMarks (m : List Host.Cell) : Vector SlotState 4 :=
  #v[slotMarks m 0, slotMarks m 1, slotMarks m 2, slotMarks m 3]

/-- Every block takes its reset values, ASEL is sampled, the held states are derived and the auto-load starts with slot 3
(R44, R72, R94, R123, R140, R156, R180, R191, R195, R208, R209). -/
def State.restart (s : State) (asel : Bool) : State :=
  let otp := s.store.interrupted s.freeCount
  { table := .atReset, merge := .atReset, damage := .atReset, streamer := .atReset, link := .atReset
    port := .atReset, host := .atReset, mgmt := .atReset asel, events := .atReset
    store := ⟨otp, heldFromMarks otp, none, some .atReset⟩
    freeCount := s.freeCount + (if s.store.programming.isSome then 1 else 0)
    pending := s.pending }

/-- POWER_ON (R209). -/
def execPowerOn (asel : Bool) (s : State) : Host.Outcome State Fault Refusal := .next (s.restart asel)

/-- RESET_PIN: the same effect as power-on, and an auto-load in progress starts over from slot 3 (R209). -/
def execResetPin (asel : Bool) (s : State) : Host.Outcome State Fault Refusal := .next (s.restart asel)

/-! ### Examination -/

/-- A PROFILE_LOAD ends (R211): the slot is emptied, OP_DONE(PROFILE_LOAD, result) is posted and the host port becomes
ACCEPTING (R157). -/
def State.endProfileLoad (s : State) (r : Result) : State :=
  ((s.endLongOp 0x63 r).setPort .accepting).setLoad none

/-- The examination of a slot finds it good (R204): WRITTEN with a good image. -/
def State.slotGood (s : State) (n : Fin 4) : Bool :=
  s.heldState n == .written && imageGood (slotImage s.store.otp n)

/-- A WRITTEN slot found not good: its damaged mark is programmed, it becomes DAMAGED, and PROFILE_FAULT is posted with
FAULT and no window (R204). Other slots are passed over (R204, R208). -/
def State.rejectSlot (s : State) (n : Fin 4) : State :=
  if s.heldState n = .written then (s.markSlot n 511 .damaged).post (.profileFault n none .fault) else s

/-- Where an auto-load goes after a slot that is not good: the next lower slot, or the factory values (R208). -/
def nextStage (n : Fin 4) : LoadStage :=
  match n with
  | 3 => .examining 2
  | 2 => .examining 1
  | 1 => .examining 0
  | 0 => .applying none

/-- The examination of slot n ends in a load (R204, R208, R211). -/
def State.examined (s : State) (kind : LoadKind) (n : Fin 4) : State :=
  if s.slotGood n then s.setLoad (some ⟨kind, .applying (some n)⟩)
  else
    match kind with
    | .startUp | .softReset => (s.rejectSlot n).setLoad (some ⟨kind, nextStage n⟩)
    | .profileLoad _ => (s.rejectSlot n).endProfileLoad .fault

/-- SLOT_EXAMINATION (R204). With no examination in progress it does not arise (log 5). -/
def execSlotExamination (s : State) : Host.Outcome State Fault Refusal :=
  .next (match s.store.load with
    | some ⟨kind, .examining n⟩ => s.examined kind n
    | some ⟨_, .applying _⟩ | none => s)

/-! ### Application of settings and the end of a load -/

/-- The streamer's state after a load applies a mode (R125). -/
def StreamMode.loadedState : StreamMode → StreamState
  | .off => .off
  | .free => .idle
  | .gated => .waitSync

/-- Global settings applied together (R205): memory port (R139), merge queue (R69), streamer (R125), mask (R188), load
outcome (R166). The queue's choice (R70) and the streamer's taking (R98) follow the new values. -/
def State.applySettings (s : State) (g : Settings) (outcome : Option (Fin 4)) : State :=
  State.takeIfIdle (State.chooseDrain
    { s with
      port := { s.port with memSize := g.memSize, waitLimit := g.waitLimit }
      merge := { s.merge with highWater := g.highWater, linger := g.linger }
      streamer := { s.streamer with
        state := g.mode.loadedState, mode := g.mode, passOpen := false, region := none, answerTimer := none
        panelFormat := g.panelFormat, answerLimit := g.answerLimit, retries := g.retries }
      events := { s.events with mask := g.mask }
      mgmt := { s.mgmt with loadOutcome := outcome } })

/-- One descriptor of a loaded image (R27, R206): a present one opens its window or posts PROFILE_FAULT with the result of
the check that fails. -/
def openFromImage (slot : Fin 4) (image : List Byte) (s : State) (n : Fin 8) : State :=
  match imageDescriptor image n with
  | none => s
  | some d =>
    match openChecks s.table s.port.memSize d with
    | .ok v => s.setWindow n (.active v)
    | .error r => s.post (.profileFault slot (some n) r)

/-- The windows of a loaded image are opened in window order (R206). -/
def State.openWindows (s : State) (slot : Fin 4) (image : List Byte) : State :=
  allWindows.foldl (openFromImage slot image) s

/-- The end of a load that applied settings (R208 to R211): PROFILE_LOADED is posted, and the start-up, the SOFT_RESET or
the PROFILE_LOAD ends with it. -/
def State.endLoad (s : State) (kind : LoadKind) (outcome : Option (Fin 4)) : State :=
  let s := s.post (.profileLoaded outcome)
  match kind with
  | .startUp => ((s.answer .done []).setPort .accepting).setLoad none
  | .softReset => ((s.endLongOp 0x0F .done).setPort .accepting).setLoad none
  | .profileLoad _ => s.endProfileLoad .done

/-- The load applies the image of a slot (R205, R206) or the factory values, which open no window (R207). -/
def State.loadImage (s : State) (image : Option (Fin 4)) : State :=
  match image with
  | none => s.applySettings Settings.factory none
  | some n =>
    let bytes := slotImage s.store.otp n
    (s.applySettings ((parseSettings bytes).getD Settings.factory) (some n)).openWindows n bytes

/-- APPLY_GLOBAL_SETTINGS (R205): once the memory port is free. While an access is in flight, or with no load waiting, it
does not arise (R139; log 5). -/
def execApplyGlobalSettings (s : State) : Host.Outcome State Fault Refusal :=
  .next (match s.store.load with
    | some ⟨kind, .applying image⟩ =>
      if s.port.access.isSome then s else (s.loadImage image).endLoad kind image
    | some ⟨_, .examining _⟩ | none => s)

end Sys2Proof.Machine
end

