-- ==== Sys2Proof/Machine/Management.lean ====
section
/-!
DEFINITION. Frames that are no command (R160), the device commands STATUS, IDENT and SOFT_RESET (R164 to R169), and the
ends of SOFT_RESET's waiting phases (R169).
-/

namespace Sys2Proof.Machine

/-- BROKEN_FRAME (R160): taken with ABORTED and no data; it consumes the arm. -/
def execBrokenFrame (s : State) : Host.Outcome State Fault Refusal :=
  .next (s.takeFrame fun _ s => s.answer .aborted [])

/-- UNKNOWN_COMMAND_FRAME (R160): taken with BAD_ARG and no data. -/
def execUnknownCommandFrame (s : State) : Host.Outcome State Fault Refusal :=
  .next (s.takeFrame fun _ s => s.answer .badArg [])

/-- The 18 data bytes of STATUS (R166). -/
def State.statusData (s : State) (arm : Option (Fin 4)) : List Byte :=
  s.table.windows.toList.map (fun w => byteOf w.code)
  ++ [byteOf s.merge.entries.length, if s.urgent then 1 else 0, byteOf s.damage.records.length,
      byteOf s.streamer.state.code, byteOf s.events.records.length,
      (s.mgmt.slot.map LongOp.command).getD 0, (s.mgmt.slot.map LongOp.parameter).getD 0,
      (s.mgmt.slot.map LongOp.phaseByte).getD 0,
      (arm.map fun n => byteOf n.val).getD 0xFF, (s.mgmt.loadOutcome.map fun n => byteOf n.val).getD 0xFF]

/-- STATUS (R166): a snapshot; the arm byte shows the arm handed to this command. -/
def execStatus (s : State) : Host.Outcome State Fault Refusal :=
  .next (s.takeFrame fun arm s => s.answer .done (s.statusData arm))

/-- The 7 data bytes of IDENT (R167): part code 4A22h, revision 03h, held states. -/
def State.identData (s : State) : List Byte :=
  [0x22, 0x4A, 0x03] ++ s.store.held.toList.map fun h => byteOf h.code

/-- IDENT (R167). -/
def execIdent (s : State) : Host.Outcome State Fault Refusal :=
  .next (s.takeFrame fun _ s => s.answer .done s.identData)

/-- SOFT_RESET taken (R164, R169): an operation in the slot ends without completing, a PROFILE_LOAD's load with it; the
host port becomes REFUSING (R158); phase 1 ends at once, and later phases follow as their conditions hold. -/
def State.startSoftReset (s : State) : State :=
  State.settle (((s.setSlot (some (.softReset .phase2))).setLoad none).setPort .refusing) []

/-- SOFT_RESET (R164). -/
def execSoftReset (s : State) : Host.Outcome State Fault Refusal :=
  .next (s.takeFrame fun _ s =>
    match s.mgmt.slot with
    | some (.profileWrite _) | some (.softReset _) => s.answer .busy []
    | some (.closeWindow _) | some (.flush ..) | some (.profileLoad _) | none =>
      s.startSoftReset.answer .accepted [])

/-- SOFT_RESET_PHASE2_END (R169): when every beat of the requests accepted before the reset is done, phase 3 begins, and
later phases as their conditions hold. -/
def execSoftResetPhase2End (s : State) : Host.Outcome State Fault Refusal :=
  .next (if s.mgmt.slot = some (.softReset .phase2) then s.endPhase2.endPhase3.chooseDrain else s)

/-- SOFT_RESET_PHASE3_END (R169): when the merge-queue count is 0, phases 4 to 6 follow and phase 7 begins. -/
def execSoftResetPhase3End (s : State) : Host.Outcome State Fault Refusal :=
  .next s.endPhase3

end Sys2Proof.Machine
end

