-- ==== Sys2Proof/Machine/Memory.lean ====
section
/-!
DEFINITION. The memory port and its arbiter (chapter 6): grants (R130 to R132), answers (R128) and timeouts (R129, R134 to
R138), with what each does for its requester (R58, R60 to R63, R103, R112, R152 to R155).
-/

namespace Sys2Proof.Machine

/-! ### Answers -/

/-- The word of a HOST_READ answer joins the read beat in action (R152, R155): the beat is done with its last word. -/
def State.hostAnswer (s : State) (w : Word) : State :=
  match s.host.action with
  | some (.read carried words answered) =>
    let got := answered ++ [w]
    if words.length ≤ got.length then
      let data := match carried with
        | some c => c.data (words.zip got)
        | none => got.headD 0
      (s.finishBeat ⟨false, data⟩).settle []
    else s.setAction (.read carried words got)
  | some (.write ..) | none => s

/-- The word of a STREAM answer joins the pixel being read (R103); the pixel whose words are all answered is converted to
the panel format (R8, R104). -/
def State.streamAnswer (s : State) (w : Word) : State :=
  match s.streamer.region with
  | none => s
  | some r =>
    match s.regionValues? r with
    | none => s
    | some v =>
      let x := r.rect.pixelX r.nextRead
      let y := r.rect.pixelY r.nextRead
      let got := r.words ++ [w]
      let words := v.pixelWords x y
      let r' : Region :=
        if words.length ≤ got.length then
          { r with
            words := [], nextRead := r.nextRead + 1
            ready := r.ready ++ [toPanel v s.streamer.panelFormat (v.pixelFrom (words.zip got) x y)] }
        else { r with words := got }
      { s with streamer := { s.streamer with region := some r' } }

/-- The fetch answer fills the drain entry (R58). -/
def State.fetchAnswer (s : State) (w : Word) : State :=
  { s with merge := s.merge.onDrain fun e => e.fetchAnswer w }

/-- The access ends and the port is free (R127). -/
def State.freePort (s : State) : State := { s with port := { s.port with access := none } }

/-- An answered access goes to its requester (R128): the word of a read, overlaid for HOST_READ and STREAM (R63) and as it is
for a fetch (R58), or the retirement of the written entry (R60). -/
def State.answered (s : State) (a : Access) (md : Word) : State :=
  if a.abandoned then s
  else match a.requester with
    | .hostRead => s.hostAnswer (s.merge.overlay a.address md)
    | .stream => s.streamAnswer (s.merge.overlay a.address md)
    | .drain => match a.write with
      | none => s.fetchAnswer md
      | some _ => s.removeDrain.afterRemoval []

/-- MEMORY_ANSWER (R128): the answer to the access in flight. On a free port the edge is ignored. -/
def execMemoryAnswer (md : Word) (s : State) : Host.Outcome State Fault Refusal :=
  .next (match s.port.access with
    | none => s
    | some a => s.freePort.answered a md)

/-! ### Timeouts -/

/-- The window of the beat in action, present for a window beat (R134). -/
def State.beatWindow (s : State) : Option (Fin 8) :=
  match s.host.action with
  | some (.read carried _ _) => carried.map Carried.window
  | some (.write ..) | none => none

/-- A HOST_READ that failed (R134, R153): MEM_TIMEOUT is posted, and the beat is done with ERROR and data 0. -/
def State.hostReadFails (s : State) (address : Nat) : State :=
  match s.host.action with
  | some (.read ..) => (s.finishBeat ⟨true, 0⟩).settle [.hostReadTimeout s.beatWindow address]
  | some (.write ..) | none => s

/-- A DRAIN access that timed out (R61, R62, R135): the first time the access is presented again; the second time the entry
is removed and MEM_TIMEOUT is posted. -/
def State.drainFails (s : State) (write : Bool) : State :=
  match s.merge.drain? with
  | none => s
  | some e =>
    if e.retryUsed then s.removeDrain.afterRemoval [.drainTimeout write e.creator e.word]
    else { s with merge := s.merge.onDrain Entry.firstTimeout }

/-- The stream wait count is 0 (R132, R136). -/
def State.resetStreamWait (s : State) : State := { s with port := { s.port with streamWait := 0 } }

/-- A STREAM read of the current region that timed out (R112, R136): the region is aborted, the record returns to PENDING,
the streamer stalls, the stream wait count is 0, and MEM_TIMEOUT is posted. -/
def State.streamFails (s : State) (address : Nat) : State :=
  match s.streamer.region with
  | none => s
  | some r => s.abortRegion.stall.resetStreamWait.post (.streamTimeout r.window address)

/-- The failure of an access goes to its requester (R129, R134 to R136); that of an abandoned one to nobody (R138). -/
def State.failed (s : State) (a : Access) : State :=
  if a.abandoned then s
  else match a.requester with
    | .hostRead => s.hostReadFails a.address
    | .drain => s.drainFails a.write.isSome
    | .stream => s.streamFails a.address

/-- ACCESS_TIMEOUT (R129): the wait timer reaches the wait limit. On a free port it does not arise (log 5). -/
def execAccessTimeout (s : State) : Host.Outcome State Fault Refusal :=
  .next (match s.port.access with
    | none => s
    | some a => s.freePort.failed a)

/-! ### Grants -/

/-- What the arbiter grants: the requester, the word address, and for a write the word. -/
structure Grant where
  requester : Requester
  address   : Nat
  write     : Option Word
deriving DecidableEq, Repr

/-- The choice by the grant order (R132): STREAM at a stream wait count of 8, urgent DRAIN, HOST_READ, STREAM, DRAIN. -/
def State.grantChoice (s : State) : Option Grant :=
  let stream := s.streamRequest?.map fun a => Grant.mk .stream a none
  let host := s.hostRequest?.map fun a => Grant.mk .hostRead a none
  let drain := s.drainRequest?.map fun d => Grant.mk .drain d.1 d.2
  let guarded := if Config.streamGuard ≤ s.port.streamWait then stream else none
  let urgent := if s.urgent then drain else none
  guarded <|> urgent <|> host <|> stream <|> drain

/-- The stream wait count after a grant (R132): 0 after a grant to STREAM, one more after another grant made while a STREAM
request is presented. -/
def State.waitAfter (s : State) (r : Requester) : Nat :=
  if r = .stream then 0
  else if s.streamRequest?.isSome then s.port.streamWait + 1
  else s.port.streamWait

/-- The granted request becomes the access in flight, with the wait limit in force (R126, R129, R131); an entry whose write is
granted becomes WRITING (R59). -/
def State.start (s : State) (g : Grant) : State :=
  let entries := if g.requester = .drain ∧ g.write.isSome
    then (s.merge.onDrain fun e => { e with state := .writing }) else s.merge
  { s with
    merge := entries
    port := { s.port with
      access := some ⟨g.requester, g.write, g.address, false, 0, s.port.waitLimit⟩
      streamWait := s.waitAfter g.requester } }

/-- A grant (R130): an address at or above the memory size ends its access at once as a timed-out one. -/
def State.grant (s : State) (g : Grant) : State :=
  let s' := s.start g
  if g.address < s.port.memSize.bytes then s'
  else s'.freePort.failed ⟨g.requester, g.write, g.address, false, 0, s.port.waitLimit⟩

/-- ARBITER_GRANT (R132): with the port free, a request presented, and no load waiting to apply its settings (R139). Else it
does not arise (log 5). -/
def execArbiterGrant (s : State) : Host.Outcome State Fault Refusal :=
  .next (if s.port.access.isSome ∨ s.loadApplying then s
    else match s.grantChoice with
      | none => s
      | some g => s.grant g)

end Sys2Proof.Machine
end

