-- ==== Sys2Proof/Machine/Profiles.lean ====
section
/-!
DEFINITION. The profile commands: PROFILE_ARM (R165), PROFILE_WRITE (R177, R198), PROGRAMMING_END (R200), PROFILE_RETIRE
(R178, R203) and PROFILE_LOAD (R179, R211).
-/

namespace Sys2Proof.Machine

/-- PROFILE_ARM (R165). -/
def execProfileArm (n : Byte) (s : State) : Host.Outcome State Fault Refusal :=
  .next (s.takeFrame fun _ s =>
    match slotNumber n with
    | none => s.answer .badArg []
    | some k => (s.setArm (some k)).answer .done [])

/-- The settings in force (R198): the streamer's mode, not its state. -/
def State.settings (s : State) : Settings :=
  { memSize := s.port.memSize, waitLimit := s.port.waitLimit, highWater := s.merge.highWater
    linger := s.merge.linger, mode := s.streamer.mode, panelFormat := s.streamer.panelFormat
    answerLimit := s.streamer.answerLimit, retries := s.streamer.retries, mask := s.events.mask }

/-- PROFILE_WRITE taken (R198): the image is captured, the started mark programmed, the slot PROGRAMMING. -/
def State.startWrite (s : State) (n : Fin 4) : State :=
  let image := captureImage s.settings s.table
  let s := (s.markSlot n 508 .programming).setSlot (some (.profileWrite n))
  { s with store := { s.store with programming := some ⟨n, image⟩ } }

/-- PROFILE_WRITE (R177). -/
def execProfileWrite (s : State) : Host.Outcome State Fault Refusal :=
  .next (s.takeFrame fun arm s =>
    match arm with
    | none => s.answer .badState []
    | some n =>
      if s.mgmt.slot.isSome then s.answer .busy []
      else if s.heldState n ≠ .blank then s.answer .badState []
      else (s.startWrite n).answer .accepted [])

/-- The bits of a byte that did not take, by offset in the slot (log 15). -/
def failedAt : List (Nat × Byte) → Nat → Byte
  | [], _ => 0
  | (o, b) :: rest, i => if o = i then b ||| failedAt rest i else failedAt rest i

/-- The slot's bytes after the programming of the captured image (R199, R200): each byte ANDed with the image, less the
bits that did not take. -/
def programImage (m : List Host.Cell) (w : Programming) (failed : List (Nat × Byte)) : List Host.Cell :=
  otpProgramAll m (slotAddress w.slot 0) (w.image.zipIdx.map fun c => c.1 ||| failedAt failed c.2)

/-- The read-back of bytes 0 to 507 matches the captured image (R200). -/
def readBackMatches (m : List Host.Cell) (w : Programming) : Bool :=
  ((slotImage m w.slot).take Config.imageBytes) == w.image

/-- A PROFILE_WRITE fails (R200): the damaged mark is programmed, the slot is DAMAGED, and OP_DONE has FAULT. -/
def State.writeFails (s : State) (n : Fin 4) : State := (s.markSlot n 511 .damaged).endLongOp 0x61 .fault

/-- The programming of a captured image ends (R200): a read-back that matches programs the finished mark and reads it back;
if it reads set the slot is WRITTEN, and in every other case the write has failed. -/
def State.endProgramming (s : State) (w : Programming) (failed : List (Nat × Byte)) : State :=
  let otp := programImage s.store.otp w failed
  let s := { s with store := { s.store with otp := otp, programming := none } }
  if readBackMatches otp w then
    let finished := otpProgram otp (slotAddress w.slot 509) (failedAt failed 509)
    let s := { s with store := { s.store with otp := finished } }
    if otpRead finished (slotAddress w.slot 509) ≠ 0xFF then
      State.endLongOp { s with store := { s.store with held := s.store.held.set w.slot .written } } 0x61 .done
    else s.writeFails w.slot
  else s.writeFails w.slot

/-- PROGRAMMING_END (R200). With no PROFILE_WRITE in flight it does not arise (log 5). -/
def execProgrammingEnd (failed : List (Nat × Byte)) (s : State) : Host.Outcome State Fault Refusal :=
  .next (match s.store.programming with
    | none => s
    | some w => s.endProgramming w failed)

/-- A PROFILE_WRITE, a PROFILE_LOAD or a SOFT_RESET holds the slot (R178). -/
def State.storeBusy (s : State) : Bool :=
  match s.mgmt.slot with
  | some (.profileWrite _) | some (.profileLoad _) | some (.softReset _) => true
  | some (.closeWindow _) | some (.flush ..) | none => false

/-- PROFILE_RETIRE (R178, R203): the retired mark of the armed WRITTEN slot is programmed and it becomes RETIRED. -/
def execProfileRetire (s : State) : Host.Outcome State Fault Refusal :=
  .next (s.takeFrame fun arm s =>
    match arm with
    | none => s.answer .badState []
    | some n =>
      if s.storeBusy then s.answer .busy []
      else if s.heldState n ≠ .written then s.answer .badState []
      else (s.markSlot n 510 .retired).answer .done [])

/-- Every window is UNUSED and the merge queue holds no entry (R179); a decoded write beat that has not reached the queue yet
counts as in it, since its lanes reach the queue before the command (R157, R212; log 7). -/
def State.quietForLoad (s : State) : Bool :=
  s.table.windows.toList.all (fun w => w == .unused) && s.merge.entries.isEmpty && !s.host.writeBeat

/-- PROFILE_LOAD (R179, R211): the host port becomes HELD (R157) and slot s is examined. -/
def execProfileLoad (n : Byte) (s : State) : Host.Outcome State Fault Refusal :=
  .next (s.takeFrame fun _ s =>
    match slotNumber n with
    | none => s.answer .badArg []
    | some k =>
      if s.mgmt.slot.isSome then s.answer .busy []
      else if !s.quietForLoad then s.answer .badState []
      else if s.heldState k ≠ .written then s.answer .badState []
      else
        (((s.setSlot (some (.profileLoad k))).setPort .held).setLoad (some ⟨.profileLoad k, .examining k⟩)).answer
          .accepted [])

end Sys2Proof.Machine
end

