-- ==== Sys2Proof/Machine/QueueDamage.lean ====
section
/-!
DEFINITION. The merge-queue commands FLUSH and QUEUE_CONFIG (R65 to R70), ENTRY_DUE (R53), and the damage commands (R84,
R85, R92).
-/

namespace Sys2Proof.Machine

/-- What a FLUSH byte selects (R65): a window's entries, or with FFh every entry; none for any other value. -/
def flushSelection (b : Byte) : Option (Option (Fin 8)) :=
  match windowNumber b with
  | some n => some (some n)
  | none => if b = 0xFF then some none else none

/-- The selection covers an entry (R65). -/
def selects (sel : Option (Fin 8)) (e : Entry) : Bool :=
  match sel with
  | none => true
  | some n => e.creator == .window n

/-- FLUSH taken (R65): the selected entries are flush-marked and are its wait set; an empty wait set ends it at once
(R66). -/
def State.startFlush (s : State) (sel : Option (Fin 8)) : State :=
  let wait := (s.merge.entries.filter (selects sel)).map Entry.word
  State.settle (State.setSlot { s with merge := s.merge.mark (selects sel) } (some (.flush sel wait))) []

/-- FLUSH (R65). -/
def execFlush (b : Byte) (s : State) : Host.Outcome State Fault Refusal :=
  .next (s.takeFrame fun _ s =>
    match flushSelection b with
    | none => s.answer .badArg []
    | some sel =>
      if s.mgmt.slot.isSome then s.answer .busy []
      else (s.startFlush sel).answer .accepted [])

/-- FLUSH_COMPLETE (R66). -/
def execFlushComplete (s : State) : Host.Outcome State Fault Refusal :=
  .next (match s.flushEnd? with
    | some t => t.post flushDone
    | none => s)

/-- QUEUE_CONFIG (R69, R70): both values replaced together; the choice is made over the new conditions. -/
def execQueueConfig (highWater linger : Byte) (s : State) : Host.Outcome State Fault Refusal :=
  .next (s.takeFrame fun _ s =>
    if highWater.toNat = 0 ∨ 16 < highWater.toNat then s.answer .badArg []
    else
      (State.chooseDrain
        { s with merge := { s.merge with highWater := highWater.toNat, linger := linger.toNat } }).answer .done [])

/-- Time passes for every entry of the queue alike (R46). -/
def MergeQueue.ageBy (q : MergeQueue) (d : Nat) : MergeQueue :=
  { q with entries := q.entries.map fun e => { e with age := e.age + d } }

/-- ENTRY_DUE (R53, R55): the age of the COLLECTING entry of a word reaches the linger time, and the ages of the other
entries have run with it (log 4). The entry may now be chosen. With no such entry the event does not arise (log 5). -/
def execEntryDue (word : BitVec 24) (s : State) : Host.Outcome State Fault Refusal :=
  .next (match s.merge.entry? word.toNat with
    | some e =>
      if e.state = .collecting then
        State.chooseDrain { s with merge := s.merge.ageBy (s.merge.linger - e.age) }
      else s
    | none => s)

/-- The data of DAMAGE_READ (R15, R92): the count and every record in list order. -/
def DamageList.readData (l : DamageList) : List Byte :=
  byteOf l.records.length :: l.records.flatMap fun r => r.bytes (l.isTail r)

/-- DAMAGE_READ (R92). -/
def execDamageRead (s : State) : Host.Outcome State Fault Refusal :=
  .next (s.takeFrame fun _ s => s.answer .done s.damage.readData)

/-- DAMAGE_ADD (R84): the checks in order, then the insertion; in IDLE the streamer takes a record at once (R98). -/
def execDamageAdd (n : Byte) (rect : PackedRect) (s : State) : Host.Outcome State Fault Refusal :=
  .next (s.takeFrame fun _ s =>
    match s.activeTarget n with
    | .error r => s.answer r []
    | .ok (w, v) =>
      if !v.tracking then s.answer .badState []
      else if !(unpackRect rect).within v.width v.height then s.answer .badArg []
      else (s.insertDamage w (unpackRect rect)).takeIfIdle.answer .done [])

/-- DAMAGE_CLEAR (R85): every PENDING record of the window leaves the list, in any state of the window. -/
def execDamageClear (n : Byte) (s : State) : Host.Outcome State Fault Refusal :=
  .next (s.takeFrame fun _ s =>
    match windowNumber n with
    | none => s.answer .badArg []
    | some w =>
      if s.resetOrLoad then s.answer .busy []
      else State.answer { s with damage := s.damage.remove (Record.pendingOf w) } .done [])

end Sys2Proof.Machine
end

