-- ==== Sys2Proof/Machine/Stream.lean ====
section
/-!
DEFINITION. The streamer commands (R115 to R119), the link's progress (R102 to R105, R110) and the panel's pulses and
timer (R99, R106 to R109).
-/

namespace Sys2Proof.Machine

/-- STREAM_MODE (R116 to R118). -/
def execStreamMode (mode : Byte) (s : State) : Host.Outcome State Fault Refusal :=
  .next (s.takeFrame fun _ s =>
    match StreamMode.ofCode mode.toNat with
    | none => s.answer .badArg []
    | some m => if s.resetOrLoad then s.answer .busy [] else (s.setMode m).answer .done [])

/-- STREAM_CONFIG (R119). -/
def execStreamConfig (format answerLimit retries : Byte) (s : State) : Host.Outcome State Fault Refusal :=
  .next (s.takeFrame fun _ s =>
    match PanelFormat.ofCode format.toNat with
    | none => s.answer .badArg []
    | some f =>
      if answerLimit.toNat = 0 ∨ 3 < retries.toNat then s.answer .badArg []
      else if s.resetOrLoad then s.answer .busy []
      else if s.streamer.state ≠ .off then s.answer .badState []
      else
        State.answer
          { s with streamer := { s.streamer with
              panelFormat := f, answerLimit := answerLimit.toNat, retries := retries.toNat } } .done [])

/-- The streamer leaves STALLED by its mode (R115). -/
def State.resume (s : State) : State :=
  match s.streamer.mode with
  | .free => State.takeIfIdle { s with streamer := { s.streamer with state := .idle } }
  | .gated => { s with streamer := { s.streamer with state := .waitSync, passOpen := false } }
  | .off => { s with streamer := { s.streamer with state := .off } }

/-- STREAM_RESUME (R115). -/
def execStreamResume (s : State) : Host.Outcome State Fault Refusal :=
  .next (s.takeFrame fun _ s =>
    if s.resetOrLoad then s.answer .busy []
    else if s.streamer.state ≠ .stalled then s.answer .badState []
    else s.resume.answer .done [])

/-- A pixel's bytes added to the checksum, mod 65536 (R104). -/
def addChecksum (c : BitVec 16) (bytes : List Byte) : BitVec 16 := c + BitVec.ofNat 16 (sumBytes bytes)

/-- The bytes of DATA that go out with a pixel (R17, R103, R104): its own, after the type byte C2h if it is the first. -/
def dataBytes (sent : Nat) (bytes : List Byte) : List Byte := if sent = 0 then 0xC2 :: bytes else bytes

/-- PIXEL_SENT (R104): the oldest converted pixel's bytes have gone out on DATA; the type byte is not added to the
checksum. With no pixel ready, or REGION not begun, it does not arise (log 5). -/
def execPixelSent (s : State) : Host.Outcome State Fault Refusal :=
  .next (if s.streamer.state ≠ .sending then s else
    match s.streamer.region with
    | none => s
    | some r =>
      match r.begun, r.ready with
      | true, p :: rest =>
        let bytes := panelBytes s.streamer.panelFormat p
        { s with
          streamer := { s.streamer with
            region := some { r with ready := rest, sent := r.sent + 1, checksum := addChecksum r.checksum bytes } }
          link := { s.link with log := s.link.log ++ [.pixel (dataBytes r.sent bytes)] } }
      | true, [] | false, _ => s)

/-- END_SENT (R105): after the last pixel byte, END with the checksum of this attempt has gone out; AWAIT_ANSWER, with the
answer timer started from 0. -/
def execEndSent (s : State) : Host.Outcome State Fault Refusal :=
  .next (if s.streamer.state ≠ .sending then s else
    match s.streamer.region with
    | none => s
    | some r =>
      if r.begun ∧ r.sent = r.rect.pixels then
        { s with
          streamer := { s.streamer with state := .awaitAnswer, answerTimer := some 0 }
          link := { s.link with log := s.link.log ++ [.endGone (endBytes r.checksum)] } }
      else s)

/-- PANEL_ACCEPT (R106, R109): in AWAIT_ANSWER the current record is removed and the region ends; else ignored. -/
def execPanelAccept (s : State) : Host.Outcome State Fault Refusal :=
  .next (if s.streamer.state = .awaitAnswer then
      State.regionEnd { s with damage := s.damage.dropStreaming }
    else s)

/-- PANEL_REFUSE (R107, R109): in AWAIT_ANSWER an answer failure; else ignored. -/
def execPanelRefuse (s : State) : Host.Outcome State Fault Refusal :=
  .next (if s.streamer.state = .awaitAnswer then s.answerFailure .refused else s)

/-- ANSWER_TIMEOUT (R107): the answer timer reaches the answer limit in AWAIT_ANSWER. -/
def execAnswerTimeout (s : State) : Host.Outcome State Fault Refusal :=
  .next (if s.streamer.state = .awaitAnswer then s.answerFailure .noAnswer else s)

/-- SYNC (R99): in WAIT_SYNC every PENDING record is marked and a pass opens, which ends at once with no record; in any
other state it is ignored. -/
def execSync (s : State) : Host.Outcome State Fault Refusal :=
  .next (if s.streamer.state = .waitSync then
      State.continuePass
        { s with damage := s.damage.markPending, streamer := { s.streamer with passOpen := true } }
    else s)

/-- ABORT_MESSAGE_SENT (R102, R110): an ABORT message has gone out; once none is owed, the REGION of a record taken
meanwhile begins. -/
def execAbortMessageSent (s : State) : Host.Outcome State Fault Refusal :=
  .next (if s.link.abortsOwed = 0 then s
    else State.startRegion
      { s with link := { abortsOwed := s.link.abortsOwed - 1, log := s.link.log ++ [.abortGone abortBytes] } })

end Sys2Proof.Machine
end

