-- ==== Sys2Proof/Machine/Windows.lean ====
section
/-!
DEFINITION. The window commands (chapter 2, R172): staging, opening, closing, querying, and the changes to an ACTIVE
window.
-/

namespace Sys2Proof.Machine

/-- STAGE_WINDOW (R21): BUSY during a reset or load, BAD_ARG for a malformed descriptor (R13) or a wrong parameter count
(R160), else the staging descriptor is FILLED with no range check. -/
def execStageWindow (descriptor : List Byte) (s : State) : Host.Outcome State Fault Refusal :=
  .next (s.takeFrame fun _ s =>
    if descriptor.length != 32 then s.answer .badArg []
    else if s.resetOrLoad then s.answer .busy []
    else if (parseDescriptor descriptor).malformed then s.answer .badArg []
    else State.answer { s with table := { s.table with staging := some descriptor } } .done [])

/-- The checks of OPEN_WINDOW in the order of R22: the window and the values that open it, or the first result that
fails. -/
def State.openTarget (s : State) (n : Byte) : Except Result (Fin 8 × WindowValues) :=
  match windowNumber n with
  | none => .error .badArg
  | some w =>
    if s.resetOrLoad then .error .busy
    else if s.window w ≠ .unused then .error .badState
    else match s.table.staging with
      | none => .error .badState
      | some d => match openChecks s.table s.port.memSize d with
        | .error r => .error r
        | .ok v => .ok (w, v)

/-- OPEN_WINDOW (R22 to R26): the window takes the staged values and becomes ACTIVE; the staging descriptor stays. -/
def execOpenWindow (n : Byte) (s : State) : Host.Outcome State Fault Refusal :=
  .next (s.takeFrame fun _ s =>
    match s.openTarget n with
    | .error r => s.answer r []
    | .ok (w, v) => (s.setWindow w (.active v)).answer .done [])

/-- The window's part in the damage list and streamer ends at a close (R28, R86, R111): its records are removed, and a
region of it is aborted and ends by R101. -/
def State.closeDamage (s : State) (n : Fin 8) : State :=
  if s.regionOf n then
    State.regionEnd { s.abortRegion with damage := s.damage.remove fun r => r.window == n }
  else { s with damage := s.damage.remove fun r => r.window == n }

/-- CLOSE_WINDOW taken for an ACTIVE window (R28, R68): the window is DRAINING, its damage goes, its entries are
flush-marked, and the slot holds the close, which may complete at once (R30). -/
def State.startClose (s : State) (n : Fin 8) (v : WindowValues) : State :=
  let s := (s.setWindow n (.draining v)).closeDamage n
  State.settle (State.setSlot { s with merge := s.merge.mark fun e => e.creator == .window n } (some (.closeWindow n))) []

/-- CLOSE_WINDOW (R28): the window number, then a taken slot, then the state. A DRAINING window's close or SOFT_RESET is in the
slot, so the answer is BUSY by R28's order of checks and section 8.3, where R30's table says BAD_STATE; taking R28's order is
the model's choice (log 29). -/
def execCloseWindow (n : Byte) (s : State) : Host.Outcome State Fault Refusal :=
  .next (s.takeFrame fun _ s =>
    match windowNumber n with
    | none => s.answer .badArg []
    | some w =>
      if s.mgmt.slot.isSome then s.answer .busy []
      else match (s.window w).active? with
        | none => s.answer .badState []
        | some v => (s.startClose w v).answer .accepted [])

/-- CLOSE_DRAIN_COMPLETE (R30). -/
def execCloseDrainComplete (s : State) : Host.Outcome State Fault Refusal :=
  .next (match s.closeEnd? with
    | some t => t.post closeDone
    | none => s)

/-- QUERY_WINDOW (R43): the state code and the 32-byte descriptor. -/
def execQueryWindow (n : Byte) (s : State) : Host.Outcome State Fault Refusal :=
  .next (s.takeFrame fun _ s =>
    match windowNumber n with
    | none => s.answer .badArg []
    | some w => s.answer .done (byteOf (s.window w).code :: (s.window w).descriptor))

/-- SET_SCROLL carried out (R32, R33): an equal value changes nothing further. -/
def State.changeScroll (s : State) (w : Fin 8) (v : WindowValues) (y : Nat) : State :=
  if y = v.scroll then s
  else State.scrollDamage (s.setWindow w (.active { v with scroll := y })) w { v with scroll := y }

/-- SET_SCROLL (R31 to R33). -/
def execSetScroll (n : Byte) (y : BitVec 16) (s : State) : Host.Outcome State Fault Refusal :=
  .next (s.takeFrame fun _ s =>
    match s.activeTarget n with
    | .error r => s.answer r []
    | .ok (w, v) =>
      if v.height ≤ y.toNat then s.answer .badArg []
      else (s.changeScroll w v y.toNat).answer .done [])

/-- SET_KEY (R31, R34). -/
def execSetKey (n : Byte) (key : Option Word) (s : State) : Host.Outcome State Fault Refusal :=
  .next (s.takeFrame fun _ s =>
    match s.activeTarget n with
    | .error r => s.answer r []
    | .ok (w, v) =>
      if key.any (fun k => v.hostFormat.maxKey < k.toNat) then s.answer .badArg []
      else (s.setWindow w (.active { v with key := key.map BitVec.toNat })).answer .done [])

/-- SET_CLIP (R31, R35). -/
def execSetClip (n : Byte) (clip : Option PackedRect) (s : State) : Host.Outcome State Fault Refusal :=
  .next (s.takeFrame fun _ s =>
    match s.activeTarget n with
    | .error r => s.answer r []
    | .ok (w, v) =>
      if clip.any (fun c => !(unpackRect c).within v.width v.height) then s.answer .badArg []
      else (s.setWindow w (.active { v with clip := clip.map unpackRect })).answer .done [])

/-- SET_ACCESS (R31, R36). -/
def execSetAccess (n : Byte) (mode : Byte) (s : State) : Host.Outcome State Fault Refusal :=
  .next (s.takeFrame fun _ s =>
    match s.activeTarget n with
    | .error r => s.answer r []
    | .ok (w, v) =>
      match AccessMode.ofCode mode.toNat with
      | none => s.answer .badArg []
      | some m => (s.setWindow w (.active { v with access := m })).answer .done [])

end Sys2Proof.Machine
end

