-- ==== Sys2Proof/Machine/Dispatch.lean ====
section
/-!
DEFINITION. The effect of a command on everything but the queue of waiting commands: one meaning per row of the table.
-/

namespace Sys2Proof.Machine

/-- The effect of a command, by the spec's rules. -/
def exec (i : Instr) (s : State) : Host.Outcome State Fault Refusal :=
  match i with
  | .powerOn asel => Sys2Proof.Machine.execPowerOn asel s
  | .resetPin asel => Sys2Proof.Machine.execResetPin asel s
  | .slotExamination => Sys2Proof.Machine.execSlotExamination s
  | .applyGlobalSettings => Sys2Proof.Machine.execApplyGlobalSettings s
  | .brokenFrame => Sys2Proof.Machine.execBrokenFrame s
  | .unknownCommandFrame => Sys2Proof.Machine.execUnknownCommandFrame s
  | .status => Sys2Proof.Machine.execStatus s
  | .ident => Sys2Proof.Machine.execIdent s
  | .softReset => Sys2Proof.Machine.execSoftReset s
  | .softResetPhase2End => Sys2Proof.Machine.execSoftResetPhase2End s
  | .softResetPhase3End => Sys2Proof.Machine.execSoftResetPhase3End s
  | .stageWindow descriptor => Sys2Proof.Machine.execStageWindow descriptor s
  | .openWindow window => Sys2Proof.Machine.execOpenWindow window s
  | .closeWindow window => Sys2Proof.Machine.execCloseWindow window s
  | .closeDrainComplete => Sys2Proof.Machine.execCloseDrainComplete s
  | .queryWindow window => Sys2Proof.Machine.execQueryWindow window s
  | .setScroll window scroll => Sys2Proof.Machine.execSetScroll window scroll s
  | .setKey window key => Sys2Proof.Machine.execSetKey window key s
  | .setClip window clip => Sys2Proof.Machine.execSetClip window clip s
  | .setAccess window mode => Sys2Proof.Machine.execSetAccess window mode s
  | .flush selection => Sys2Proof.Machine.execFlush selection s
  | .flushComplete => Sys2Proof.Machine.execFlushComplete s
  | .queueConfig highWater linger => Sys2Proof.Machine.execQueueConfig highWater linger s
  | .damageRead => Sys2Proof.Machine.execDamageRead s
  | .damageAdd window rect => Sys2Proof.Machine.execDamageAdd window rect s
  | .damageClear window => Sys2Proof.Machine.execDamageClear window s
  | .streamMode mode => Sys2Proof.Machine.execStreamMode mode s
  | .streamConfig format answerLimit retries => Sys2Proof.Machine.execStreamConfig format answerLimit retries s
  | .streamResume => Sys2Proof.Machine.execStreamResume s
  | .eventsRead => Sys2Proof.Machine.execEventsRead s
  | .irqMask mask => Sys2Proof.Machine.execIrqMask mask s
  | .profileArm slot => Sys2Proof.Machine.execProfileArm slot s
  | .profileWrite => Sys2Proof.Machine.execProfileWrite s
  | .programmingEnd failed => Sys2Proof.Machine.execProgrammingEnd failed s
  | .profileRetire => Sys2Proof.Machine.execProfileRetire s
  | .profileLoad slot => Sys2Proof.Machine.execProfileLoad slot s
  | .hostRequestAccept request => Sys2Proof.Machine.execHostRequestAccept request s
  | .beatDecode => Sys2Proof.Machine.execBeatDecode s
  | .laneArrival => Sys2Proof.Machine.execLaneArrival s
  | .hostAnswerTransfer => Sys2Proof.Machine.execHostAnswerTransfer s
  | .entryDue word => Sys2Proof.Machine.execEntryDue word s
  | .arbiterGrant => Sys2Proof.Machine.execArbiterGrant s
  | .memoryAnswer md => Sys2Proof.Machine.execMemoryAnswer md s
  | .accessTimeout => Sys2Proof.Machine.execAccessTimeout s
  | .pixelSent => Sys2Proof.Machine.execPixelSent s
  | .endSent => Sys2Proof.Machine.execEndSent s
  | .panelAccept => Sys2Proof.Machine.execPanelAccept s
  | .panelRefuse => Sys2Proof.Machine.execPanelRefuse s
  | .answerTimeout => Sys2Proof.Machine.execAnswerTimeout s
  | .sync => Sys2Proof.Machine.execSync s
  | .abortMessageSent => Sys2Proof.Machine.execAbortMessageSent s

end Sys2Proof.Machine
end

