-- ==== Sys2Proof/Machine/Time.lean ====
section
/-!
DEFINITION. One microsecond in which no command comes (log 2): the ages of entries (R46), the wait timer (R129) and the
answer timer (R106) advance, and what has then run out is taken: the access timeout (R129), the answer timeout (R107)
and the drain choice over entries that have become due (R53, R55).
-/

namespace Sys2Proof.Machine

/-- Ages and timers one microsecond on. -/
def State.advance (s : State) : State :=
  { s with
    merge := s.merge.ageBy 1
    port := { s.port with access := s.port.access.map fun a => { a with timer := a.timer + 1 } }
    streamer := { s.streamer with answerTimer := s.streamer.answerTimer.map fun t => t + 1 } }

/-- The wait timer of the access in flight has reached its wait limit (R129). -/
def State.accessExpired (s : State) : Bool := s.port.access.any fun a => a.limit ≤ a.timer

/-- The answer timer has reached the answer limit in AWAIT_ANSWER (R107). -/
def State.answerExpired (s : State) : Bool :=
  s.streamer.state == .awaitAnswer
  && s.streamer.answerTimer.any fun t => s.streamer.answerLimit * Config.answerUnit ≤ t

/-- An access whose wait timer has run out ends as timed out (R129). -/
def State.expireAccess (s : State) : State :=
  match s.port.access with
  | some a => if a.limit ≤ a.timer then s.freePort.failed a else s
  | none => s

/-- An answer timer that has run out is an answer failure (R107). -/
def State.expireAnswer (s : State) : State := if s.answerExpired then s.answerFailure .noAnswer else s

/-- What has run out is taken. Of two timers that run out together, which is first is not set by the device (R186), so a free
value decides (log 3). -/
def State.expire (s : State) : State :=
  if s.accessExpired && s.answerExpired then
    let s' := { s with freeCount := s.freeCount + 1 }
    if Config.accessTimerFirst s.freeCount then s'.expireAccess.expireAnswer else s'.expireAnswer.expireAccess
  else s.expireAccess.expireAnswer

/-- One microsecond passes (log 2). -/
def State.tick (s : State) : State := s.advance.expire.chooseDrain

end Sys2Proof.Machine
end

