-- ==== Sys2Proof/Machine/Transfer.lean ====
section
/-!
DEFINITION. Transfers on the management bus (section 8.1): which address bytes the port acknowledges, the frame a write
transfer gathers and the command taken at its end, and what a read transfer sends. A frame row of the table stands for a
whole write transfer to the port's own address; this file brings those rows about byte by byte (log 18). In the same way it
brings about HOST_REQUEST_ACCEPT and HOST_ANSWER_TRANSFER beat by beat on the host bus (section 7.1; log 8).
-/

namespace Sys2Proof.Machine

/-- What the controller puts on SCL and SDA, byte by byte. -/
inductive BusEvent where
  /-- The address byte after a start condition: the 7-bit address and the direction. -/
  | address (address : BitVec 7) (read : Bool)
  /-- A further byte written whole. -/
  | written (byte : Byte)
  /-- A further byte read whole, and whether the controller acknowledged it. -/
  | taken (acknowledged : Bool)
  /-- A stop condition, or the start condition of a repeated start, and whether it came inside a byte. -/
  | ended (inByte : Bool)
deriving DecidableEq, Repr

/-- The transfer the port takes part in. -/
def State.setTransfer (s : State) (t : Option Transfer) : State := { s with mgmt := { s.mgmt with transfer := t } }

/-- A transfer begins (R159, R161): with an acknowledged address byte the port takes part in it, a read with the response
buffer as it stands. -/
def State.beginTransfer (s : State) (address : BitVec 7) (read : Bool) : State :=
  s.setTransfer
    (if s.acksAddress address read then some (if read then .read s.mgmt.response 0 else .write [] false) else none)

/-- A byte of a write transfer (R159): acknowledged up to the 33rd, and the transfer overlong from then on. -/
def Transfer.written (t : Transfer) (byte : Byte) : Transfer :=
  match t with
  | .write frame overlong =>
    if frame.length < Config.maxFrame then .write (frame ++ [byte]) overlong else .write frame true
  | .read content sent => .read content sent

/-- A byte of a read transfer (R161): the port sends the next one for as long as the controller acknowledges. -/
def Transfer.taken (t : Transfer) (acknowledged : Bool) : Option Transfer :=
  match t with
  | .read content sent => if acknowledged then some (.read content (sent + 1)) else none
  | .write frame overlong => some (.write frame overlong)

/-- What happens on the management bus (R159 to R161). A transfer the port takes no part in changes nothing; at the end of
one it has taken part in, the command of the frame is carried out. -/
def busStep (e : BusEvent) (s : State) : Host.Outcome State Fault Refusal :=
  match e with
  | .address a read => .next (s.beginTransfer a read)
  | .written b => .next (s.setTransfer (s.mgmt.transfer.map fun t => t.written b))
  | .taken ack => .next (s.setTransfer (s.mgmt.transfer.bind fun t => t.taken ack))
  | .ended inByte =>
    match s.mgmt.transfer with
    | some (.write frame overlong) =>
      match decodeFrame frame overlong inByte with
      | some c => exec c (s.setTransfer none)
      | none => .next (s.setTransfer none)
    | some (.read ..) | none => .next (s.setTransfer none)

/-! ### The host bus -/

/-- What happens on the host bus, beat by beat (R142). -/
inductive HostBusEvent where
  /-- The host presents a request's address with its kind and its length less one. -/
  | request (write : Bool) (address : Word) (hlen : BitVec 4)
  /-- The host presents the next beat of the WRITE whose address was taken. -/
  | beat (beat : WriteBeat)
  /-- The device may start an answer transfer, HVALID being asserted or released. -/
  | answerBegins (hvalid : Bool)
  /-- The answer beat on the bus has gone over. -/
  | answerBeat
deriving DecidableEq, Repr

/-- The WRITE transfer under way. -/
def State.setIncoming (s : State) (i : Option Incoming) : State := { s with host := { s.host with incoming := i } }

/-- The answer transfer under way. -/
def State.setSending (s : State) (k : Option Nat) : State := { s with host := { s.host with sending := k } }

/-- A request's address (R142): a READ is accepted with it, a WRITE begins. While HACCEPT is held released it waits. -/
def State.takeAddress (s : State) (write : Bool) (address : Word) (hlen : BitVec 4) : Host.Outcome State Fault Refusal :=
  if !s.haccept || s.host.incoming.isSome then .next s
  else if write then .next (s.setIncoming (some ⟨address, hlen, []⟩))
  else exec (.hostRequestAccept (.read address hlen)) s

/-- A beat of a WRITE (R142): the request is accepted with its last one. While HACCEPT is held released it waits. -/
def State.takeBeat (s : State) (i : Incoming) (b : WriteBeat) : Host.Outcome State Fault Refusal :=
  if !s.haccept then .next s
  else if i.beats.length < i.hlen.toNat then .next (s.setIncoming (some { i with beats := i.beats ++ [b] }))
  else exec (.hostRequestAccept (.write i.address i.hlen (i.beats ++ [b]))) (s.setIncoming none)

/-- An answer transfer starts (R142, R147): the oldest answer is due, and HVALID is released or the presented request waits
because the port does not take it. -/
def State.beginAnswer (s : State) (hvalid : Bool) : State :=
  if s.host.answerDue && !s.requestGoesOn hvalid then s.setSending (some 0) else s

/-- What happens on the host bus (R142, R143, R147): an answer whose last beat has gone over has been sent whole. -/
def hostBusStep (e : HostBusEvent) (s : State) : Host.Outcome State Fault Refusal :=
  match e with
  | .request write address hlen => s.takeAddress write address hlen
  | .beat b =>
    match s.host.incoming with
    | some i => s.takeBeat i b
    | none => .next s
  | .answerBegins hvalid => .next (s.beginAnswer hvalid)
  | .answerBeat =>
    match s.host.sending with
    | none => .next s
    | some k =>
      if k + 1 < (s.host.requests.head?.map fun r => r.answer.length).getD 0 then .next (s.setSending (some (k + 1)))
      else exec .hostAnswerTransfer s

end Sys2Proof.Machine
end

