-- ==== Sys2Proof/Safety.lean ====
section
/-!
DEFINITION. What a sound state of the UJ-220 is, block by block: the promises of the specification that hold between any
two commands. Each is stated for every state, so that a step from a sound state can be asked to give a sound state.
-/

namespace Sys2Proof

/-- The commands that are frames taken by the management port (R160): those that software sends, and the two kinds of
frame that are no command. -/
def Instr.isFrame : Instr → Bool
  | .brokenFrame | .unknownCommandFrame => true
  | i => (encodeFrame i).isSome

end Sys2Proof

namespace Sys2Proof.Machine

/-- The management port takes frames: no start-up load runs (R180). -/
abbrev State.ready (s : State) : Prop := s.startingUp = false

/-- A frame taken with this response (R160, R165): the response buffer holds these bytes and the arm is absent. -/
def State.reply (s : State) (response : List Byte) : State :=
  { s with mgmt := { s.mgmt with response := response, arm := none } }

/-- The state at the start of phase 7 of a SOFT_RESET that met no region in flight (R45, R95, R124, R165, R192, R210). -/
def State.phase7Start (s : State) : State :=
  { s with
    table := ⟨Vector.replicate 8 .unused, none⟩
    damage := ⟨[], 0⟩
    streamer := { s.streamer with state := .off, mode := .off, passOpen := false, region := none }
    events := { s.events with records := [] }
    mgmt := { s.mgmt with slot := some (.softReset .phase7), arm := none }
    store := { s.store with load := some ⟨.softReset, .examining 3⟩ } }

/-- Phase 3 of a SOFT_RESET as the slot shows it (R55, R169): with the queue empty, phases 4 to 6 follow, a region in flight
being aborted, and phase 7 begins; else the drain choice is made. -/
def State.phase3GoesOn (s : State) : State :=
  if s.merge.entries = [] then (if s.streamer.region.isSome then s.abortRegion else s).phase7Start else s.chooseDrain

/-- What follows at the same moment as a command, by the occupant of the long-operation slot (log 6): a FLUSH whose wait set
is empty ends (R66); a close of a window with no entry and no decoded write beat ends (R30); phase 2 of a SOFT_RESET ends
once no beat is left to be done, every entry being flush-marked, and phase 3 once the queue is empty (R73, R169); and the
drain choice is made over the entries as they then stand (R55). `es` are the events of the command's own act: with the
OP_DONE of what ends, they are posted together, in an order that is left open (R186); phase 5 of a SOFT_RESET empties them
with the queue (R192; the model's inference, log 28). -/
def State.goesOn (s : State) (es : List Event) : State :=
  let posted := s.postTogether es
  match s.mgmt.slot with
  | some (.flush _ []) =>
    State.chooseDrain (State.postTogether { s with mgmt := { s.mgmt with slot := none } } (es ++ [.opDone 0x20 .done]))
  | some (.closeWindow n) =>
    if s.merge.entries.any (fun e => e.creator == .window n) || s.host.writeBeatOf n then posted.chooseDrain
    else State.chooseDrain (State.postTogether
      { s.setWindow n .unused with mgmt := { s.mgmt with slot := none } } (es ++ [.opDone 0x12 .done]))
  | some (.softReset .phase2) =>
    if s.host.quiet then
      State.phase3GoesOn { posted with
        merge := { s.merge with entries := s.merge.entries.map fun e => { e with flushMark := true } }
        mgmt := { s.mgmt with slot := some (.softReset .phase3) } }
    else posted.chooseDrain
  | some (.softReset .phase3) => posted.phase3GoesOn
  | some (.flush _ (_ :: _)) | some (.profileWrite _) | some (.profileLoad _) | some (.softReset .phase1)
  | some (.softReset .phase4) | some (.softReset .phase5) | some (.softReset .phase6) | some (.softReset .phase7)
  | none => posted.chooseDrain

/-- The rectangle that a taken write beat inserts into the damage list, with its window (R77, R151): with tracking on at the
decode and its window ACTIVE its run, or the whole window where the scroll has changed since. -/
def State.beatDamage (s : State) (run : Option (Carried × Rect)) : Option (Fin 8 × Rect) :=
  match run with
  | none => none
  | some (d, r) => match s.window d.window with
    | .active v =>
      if d.values.tracking = false then none
      else some (d.window, if v.scroll = d.values.scroll then r else ⟨0, 0, v.width - 1, v.height - 1⟩)
    | .unused | .draining _ => none

/-- A write beat whose lane set is taken (R49 to R51, R77, R146, R151): the queue takes the set; its damage is inserted, and in
IDLE the streamer takes a record at once; the beat is done with OK. Its event is that of `beatEvents`. -/
def State.beatTaken (s : State) (c : Creator) (lanes : List LaneWrite) (run : Option (Carried × Rect)) : State :=
  let taken : State := { s with merge := s.merge.takeSet c (s.marksNew c) (s.port.serves .drain) lanes }
  let damaged : State := match s.beatDamage run with
    | none => taken
    | some (w, q) => State.takeIfIdle { taken with damage := (s.damage.insert w q).1 }
  damaged.finishBeat ⟨false, 0⟩

/-- The DAMAGE_COLLAPSE that the damage of a taken write beat raises, if its insertion collapses a window (R83). -/
def State.beatEvents (s : State) (run : Option (Carried × Rect)) : List Event :=
  match s.beatDamage run with
  | none => []
  | some (w, q) => match (s.damage.insert w q).2 with
    | none => []
    | some v => [.damageCollapse v]

/-- The drain entry, of this word, has left the queue, and with it the wait set of a FLUSH (R60, R62, R66). -/
def State.withoutDrain (s : State) (word : Nat) : State :=
  { s with
    merge := { s.merge with entries := s.merge.entries.eraseP Entry.draining }
    mgmt := { s.mgmt with slot := match s.mgmt.slot with
      | some (.flush sel ws) => some (.flush sel (ws.filter fun b => b != word))
      | slot => slot } }

/-- What follows at the same moment as the removal of an entry (R30, R49, R60, R62, R66, R83, R186): a write beat that waits and
can now be taken is taken, and its event arises with those of the removal and of what then ends. -/
def State.removalGoesOn (s : State) (es : List Event) : State :=
  match s.host.action with
  | some (.write c lanes run) =>
    if s.merge.canTake lanes = true then (s.beatTaken c lanes run).goesOn (es ++ s.beatEvents run) else s.goesOn es
  | some (.read ..) | none => s.goesOn es

/-- A step on the management bus, where it answers a next state; it always does. -/
def State.bus (s : State) (e : BusEvent) : State :=
  match busStep e s with
  | .next t => t
  | .fault _ | .refused _ => s

/-- A step on the host bus, where it answers a next state; it always does. -/
def State.hostBus (s : State) (e : HostBusEvent) : State :=
  match hostBusStep e s with
  | .next t => t
  | .fault _ | .refused _ => s

/-- The words of a lane set for which the queue has no entry (R49), each named once. -/
def MergeQueue.lacks (q : MergeQueue) (lanes : List LaneWrite) (words : List Nat) : Prop :=
  words.Nodup ∧ ∀ a, a ∈ words ↔ (∃ l ∈ lanes, l.word = a) ∧ ∀ e ∈ q.entries, e.word ≠ a

/-- The rectangle is the bounding box of these rectangles (R81): it holds each of them, and each of its sides is a side of one
of them. -/
def Rect.bounds (box : Rect) (rs : List Rect) : Prop :=
  (∀ r ∈ rs, box.contains r = true)
  ∧ (∃ r ∈ rs, r.x0 = box.x0) ∧ (∃ r ∈ rs, r.y0 = box.y0) ∧ (∃ r ∈ rs, r.x1 = box.x1) ∧ (∃ r ∈ rs, r.y1 = box.y1)

/-- A record taken for streaming (R88, R98, R102): it becomes STREAMING in its place and is the current record, retries used is
0, the state SENDING, and REGION begins at once unless an ABORT message is owed. -/
def State.withTaken (s : State) (p : Record → Bool) (r : Record) : State :=
  { s with
    damage := { s.damage with records := modifyFirst p (fun q => { q with state := .streaming }) s.damage.records }
    streamer := { s.streamer with
      state := .sending, retriesUsed := 0, answerTimer := none
      region := some ⟨r.window, r.rect, s.link.abortsOwed == 0, 0, [], [], 0, 0⟩ }
    link := { s.link with log := s.link.log ++ if s.link.abortsOwed = 0 then
        [.regionBegun (regionBytes s.streamer.panelFormat
          (((s.window r.window).values?.bind WindowValues.origin).getD (0, 0)) r.rect)] else [] } }

/-- A region end (R98, R100, R101): the current record is cleared and the answer timer stopped; in FREE mode the first PENDING
record is taken, with none IDLE; in an open pass the first marked PENDING record is taken, with none the pass is over; else
GATED mode waits for SYNC, and OFF is OFF. -/
def State.regionOver (s : State) : State :=
  let ended : State := { s with streamer := { s.streamer with region := none, answerTimer := none } }
  match s.streamer.mode with
  | .off => { ended with streamer := { ended.streamer with state := .off } }
  | .free => match s.damage.records.find? Record.isPending with
    | none => { ended with streamer := { ended.streamer with state := .idle } }
    | some r => ended.withTaken Record.isPending r
  | .gated =>
    if s.streamer.passOpen = false then { ended with streamer := { ended.streamer with state := .waitSync } }
    else match s.damage.records.find? Record.isMarked with
      | none => { ended with streamer := { ended.streamer with state := .waitSync, passOpen := false } }
      | some r => ended.withTaken Record.isMarked r

/-- Some lane is valid (R46). -/
def Lanes.someValid (l : Lanes) : Bool := l.toList.any Option.isSome

/-- The merge queue holds at most 16 entries of distinct words (R47), at most one of them the drain entry (R55); each entry
has a valid lane (R46), and one whose write is presented or granted is complete (R56 to R59). -/
abbrev MergeSound (s : State) : Prop :=
  s.merge.entries.length ≤ 16
  ∧ (s.merge.entries.map Entry.word).Nodup
  ∧ (s.merge.entries.filter Entry.draining).length ≤ 1
  ∧ (∀ e ∈ s.merge.entries, e.lanes.someValid = true)
  ∧ (∀ e ∈ s.merge.entries, e.state = .pendingWrite ∨ e.state = .writing → e.complete = true)

/-- No drain choice is left open (R55): the queue chooses as soon as an entry can be chosen. -/
abbrev DrainChosen (s : State) : Prop := s.chooseDrain = s

/-- Each record's sequence number is one more than that of the record before it, unless that earlier one carries the lost
mark (R185); after the newest record comes the counter. -/
def sequenceSound (counter : Byte) : List EventRecord → Bool
  | [] => true
  | [r] => r.lost || r.sequence + 1 == counter
  | r :: q :: rest => (r.lost || r.sequence + 1 == q.sequence) && sequenceSound counter (q :: rest)

/-- The event queue holds at most 16 records in sequence (R185). -/
abbrev EventsSound (s : State) : Prop :=
  s.events.records.length ≤ 16 ∧ sequenceSound s.events.counter s.events.records = true

/-- The values of a window that is in use are in range (R19, R23), its span is derived from them (R20), its host range ends
at or below FFFFFFFFh (R25), and its footprint lies in the largest memory (R24). -/
abbrev WindowValues.sound (v : WindowValues) : Prop :=
  v.inRange = true
  ∧ v.hostSpan = hostSpanOf v.width v.height v.hostFormat
  ∧ v.hostBase + v.hostSpan ≤ 4294967296
  ∧ v.memBase + v.height * v.pitch * 4 ≤ 16777216

/-- Every window in use has sound values, no two of them overlap in host range (R25), and a staged descriptor has 32 bytes
whose sum is a multiple of 256 (R13, R21). -/
abbrev TableSound (s : State) : Prop :=
  (∀ n : Fin 8, ∀ v ∈ (s.window n).values?, v.sound)
  ∧ (∀ n m : Fin 8, n ≠ m → ∀ v ∈ (s.window n).values?, ∀ w ∈ (s.window m).values?, v.apart w = true)
  ∧ (∀ d ∈ s.table.staging, (parseDescriptor d).malformed = false)

/-- A record of the request queue: 1 to 16 beats, no more outcomes than beats, a word-aligned address, and a last beat below
the top of the address space unless the request was refused whole with WRAP (R142 to R144). -/
abbrev HostRecord.sound (r : HostRecord) : Prop :=
  1 ≤ r.length ∧ r.length ≤ 16 ∧ r.outcomes.length ≤ r.length ∧ r.address % 4 = 0
  ∧ (r.refusal = some .wrap ∨ r.address + 4 * (r.length - 1) ≤ 0xFFFFFFFC)
  ∧ (r.refusal.isSome → r.done = true)

/-- The request queue holds at most 8 sound records (R143), and a beat in action belongs to a record with a beat not yet done
(R146). An answer going out is the oldest record's, which is due, with a beat still to go (R143, R147), and a WRITE under way
lacks a beat (R142). -/
abbrev HostSound (s : State) : Prop :=
  s.host.requests.length ≤ 8
  ∧ (∀ r ∈ s.host.requests, r.sound)
  ∧ (s.host.action.isSome → s.host.head?.isSome)
  ∧ (∀ k ∈ s.host.sending, s.host.requests.head?.any (fun r => r.done && decide (k < r.answer.length)) = true)
  ∧ (∀ i ∈ s.host.incoming, i.beats.length ≤ i.hlen.toNat)

/-- Every memory address in use lies below the configured memory size (R46, R47, R130, R139): the footprints of windows in
use, the words of entries and of a decoded write beat, which are word addresses, and the access in flight. While a load
runs, which can change the size, no window is in use and the queue is empty (R139, R179). -/
abbrev AddressSound (s : State) : Prop :=
  (∀ n : Fin 8, ∀ v ∈ (s.window n).values?, v.fitsMemory s.port.memSize = true)
  ∧ (∀ e ∈ s.merge.entries, e.word % 4 = 0 ∧ e.word < s.port.memSize.bytes)
  ∧ (match s.host.action with
     | some (.write _ lanes _) => ∀ l ∈ lanes, l.word % 4 = 0 ∧ l.word < s.port.memSize.bytes
     | some (.read ..) | none => True)
  ∧ (∀ a ∈ s.port.access, a.address < s.port.memSize.bytes)
  ∧ (s.store.load.isSome → (∀ n : Fin 8, s.window n = .unused) ∧ s.merge.entries = [])

/-- The settings in force are in the ranges of R18 (R54, R53, R96, R126), and so are the values that come from them: the wait
limit of the access in flight and the retries used. -/
abbrev SettingsSound (s : State) : Prop :=
  (1 ≤ s.port.waitLimit ∧ s.port.waitLimit ≤ 64)
  ∧ (∀ a ∈ s.port.access, 1 ≤ a.limit ∧ a.limit ≤ 64)
  ∧ (1 ≤ s.merge.highWater ∧ s.merge.highWater ≤ 16)
  ∧ s.merge.linger ≤ 255
  ∧ (1 ≤ s.streamer.answerLimit ∧ s.streamer.answerLimit ≤ 255)
  ∧ s.streamer.retries ≤ 3 ∧ s.streamer.retriesUsed ≤ 3

/-- What a slot's held state says of its marks (R195 to R197): a BLANK slot has no mark set; a slot being written has only the
started mark; any other held state is the one the marks decide. -/
def slotSound (m : List Host.Cell) (programming : Option Programming) (n : Fin 4) : SlotState → Prop
  | .blank => ∀ i, 508 ≤ i → i < 512 → otpRead m (slotAddress n i) = 0xFF
  | .programming => programming.map Programming.slot = some n ∧ otpRead m (slotAddress n 508) ≠ 0xFF
      ∧ ∀ i, 509 ≤ i → i < 512 → otpRead m (slotAddress n i) = 0xFF
  | .written => slotMarks m n = .written
  | .retired => slotMarks m n = .retired
  | .damaged => slotMarks m n = .damaged

/-- The profile store: canonical bytes, held states that agree with the marks, and a write in flight only of a slot in
PROGRAMMING with an image of 508 bytes (R195 to R199). -/
abbrev StoreSound (s : State) : Prop :=
  otpWf s.store.otp = true
  ∧ (∀ n : Fin 4, slotSound s.store.otp s.store.programming n (s.heldState n))
  ∧ (∀ w ∈ s.store.programming, s.heldState w.slot = .programming ∧ w.image.length = 508)

/-- The held states a slot can have after it had `a` (R196): unchanged, or one of the listed transitions (the two of a
WRITTEN slot, the write of a BLANK one, the ends of a write). -/
def SlotState.canBecome : SlotState → SlotState → Bool
  | .blank, .blank | .blank, .programming => true
  | .programming, .programming | .programming, .written | .programming, .damaged => true
  | .written, .written | .written, .retired | .written, .damaged => true
  | .retired, .retired => true
  | .damaged, .damaged => true
  | .blank, .written | .blank, .retired | .blank, .damaged => false
  | .programming, .blank | .programming, .retired => false
  | .written, .blank | .written, .programming => false
  | .retired, .blank | .retired, .programming | .retired, .written | .retired, .damaged => false
  | .damaged, .blank | .damaged, .programming | .damaged, .written | .damaged, .retired => false

/-- The host port's state while a load of this kind runs (R156 to R158). -/
def LoadKind.portState : LoadKind → PortState
  | .startUp | .profileLoad _ => .held
  | .softReset => .refusing

/-- The occupant of the long-operation slot while a load of this kind runs (R163, R210, R211). -/
def LoadKind.occupant : LoadKind → Option LongOp
  | .startUp => none
  | .profileLoad n => some (.profileLoad n)
  | .softReset => some (.softReset .phase7)

/-- The slot holds a SOFT_RESET. -/
def LongOp.isSoftReset : LongOp → Bool
  | .softReset _ => true
  | .closeWindow _ | .flush .. | .profileWrite _ | .profileLoad _ => false

/-- The slot of a PROFILE_WRITE in the long-operation slot. -/
def LongOp.writeSlot? : LongOp → Option (Fin 4)
  | .profileWrite n => some n
  | .closeWindow _ | .flush .. | .profileLoad _ | .softReset _ => none

/-- A load occupant: PROFILE_LOAD, or a SOFT_RESET in phase 7. -/
def LongOp.isLoad : LongOp → Bool
  | .profileLoad _ | .softReset .phase7 => true
  | .closeWindow _ | .flush .. | .profileWrite _ | .softReset .phase1 | .softReset .phase2 | .softReset .phase3
  | .softReset .phase4 | .softReset .phase5 | .softReset .phase6 => false

/-- The long-operation slot, the host port's state, the write in flight and the load agree (R145, R163, R169, R198, R210,
R211): a SOFT_RESET rests in phase 2, 3 or 7 only, from phase 3 on no beat is left to be done, and a close in the slot
has its window DRAINING (R28). -/
abbrev OperationSound (s : State) : Prop :=
  (s.store.programming.map Programming.slot = s.mgmt.slot.bind LongOp.writeSlot?)
  ∧ (∀ p, s.mgmt.slot = some (.softReset p) → p = .phase2 ∨ p = .phase3 ∨ p = .phase7)
  ∧ (∀ n, s.mgmt.slot = some (.closeWindow n) → ∃ v, s.window n = .draining v)
  ∧ (s.host.state = .refusing ↔ s.mgmt.slot.any LongOp.isSoftReset = true)
  ∧ (s.mgmt.slot = some (.softReset .phase3) ∨ s.mgmt.slot = some (.softReset .phase7) → s.host.quiet = true)
  ∧ (match s.store.load with
     | none => s.host.state ≠ .held ∧ s.mgmt.slot.any LongOp.isLoad = false
     | some l => s.host.state = l.kind.portState ∧ s.mgmt.slot = l.kind.occupant ∧ s.host.writeBeat = false)

/-- The record is STREAMING. -/
def Record.isStreaming (r : Record) : Bool := r.state == .streaming

/-- The streamer is in SENDING or AWAIT_ANSWER. -/
def StreamState.inRegion : StreamState → Bool
  | .sending | .awaitAnswer => true
  | .off | .idle | .waitSync | .stalled => false

/-- The streamer and the damage list agree (R96 to R98): OFF exactly in mode OFF, a pass open only in GATED mode with a region
in hand, IDLE only in FREE mode and WAIT_SYNC only in GATED mode, no PENDING record left in IDLE, the timer running
exactly in AWAIT_ANSWER, one STREAMING record exactly in SENDING and AWAIT_ANSWER, which is the current record; and no
record and no region while a load runs. -/
abbrev StreamSound (s : State) : Prop :=
  (s.streamer.state = .off ↔ s.streamer.mode = .off)
  ∧ (s.streamer.passOpen = true → s.streamer.mode = .gated ∧ s.streamer.state.inRegion = true)
  ∧ (s.streamer.state = .idle → s.streamer.mode = .free ∧ s.damage.records.any Record.isPending = false)
  ∧ (s.streamer.state = .waitSync → s.streamer.mode = .gated)
  ∧ (s.streamer.answerTimer.isSome ↔ s.streamer.state = .awaitAnswer)
  ∧ (s.damage.records.filter Record.isStreaming).map (fun r => (r.window, r.rect))
      = (s.streamer.region.map fun r => (r.window, r.rect)).toList
  ∧ (s.streamer.region.isSome ↔ s.streamer.state.inRegion = true)
  ∧ (s.store.load.isSome → s.damage.records = [])

/-- The damage list holds at most 24 records; every record's window is ACTIVE and its rectangle lies within that window
(R74), and no two records share a place of the touch order (R76). A decoded window write beat keeps its window in use with
the size it was decoded with, and its run lies within it (R29, R30, R77). -/
abbrev DamageSound (s : State) : Prop :=
  s.damage.records.length ≤ 24
  ∧ (∀ r ∈ s.damage.records, ∃ v ∈ (s.window r.window).active?, r.rect.within v.width v.height = true)
  ∧ ((s.damage.records.map Record.touch).Nodup ∧ ∀ r ∈ s.damage.records, r.touch < s.damage.nextTouch)
  ∧ (match s.host.action with
     | some (.write c _ (some (d, run))) =>
       c = .window d.window ∧ ∃ v ∈ (s.window d.window).values?,
         v.width = d.values.width ∧ v.height = d.values.height ∧ run.within v.width v.height = true
     | some (.write ..) | some (.read ..) | none => True)

end Sys2Proof.Machine
end

