-- ==== Sys2Proof/WellFormed.lean ====
section
/-!
DEFINITION. Which operands a command can carry. The meanings are total; this check says which terms of `Instr` a bus or
a part can bring about.
-/

namespace Sys2Proof

/-- A WRITE presents exactly as many beats as HLEN announces (R142). -/
def HostRequest.wellFormed : HostRequest → Bool
  | .read _ _          => true
  | .write _ hlen beats => beats.length == hlen.toNat + 1

/-- The operand checks: a STAGE_WINDOW carries 32 descriptor bytes (R172), a WRITE carries its length of beats (R142), an
entry's word address is a multiple of 4 (R46), and programming can fail only at the bytes it programs and reads back
(R197, R199, R200). -/
def Instr.wellFormed : Instr → Bool
  | .stageWindow descriptor => descriptor.length == 32
  | .hostRequestAccept r    => r.wellFormed
  | .entryDue word          => word.toNat % 4 == 0
  | .programmingEnd failed  => failed.all fun f => decide (f.1 < 508) || f.1 == 509
  | .powerOn _ | .resetPin _ | .slotExamination | .applyGlobalSettings | .brokenFrame | .unknownCommandFrame
  | .status | .ident | .softReset | .softResetPhase2End | .softResetPhase3End | .openWindow _ | .closeWindow _
  | .closeDrainComplete | .queryWindow _ | .setScroll _ _ | .setKey _ _ | .setClip _ _ | .setAccess _ _ | .flush _
  | .flushComplete | .queueConfig _ _ | .damageRead | .damageAdd _ _ | .damageClear _ | .streamMode _
  | .streamConfig _ _ _ | .streamResume | .eventsRead | .irqMask _ | .profileArm _ | .profileWrite | .profileRetire
  | .profileLoad _ | .beatDecode | .laneArrival | .hostAnswerTransfer | .arbiterGrant | .memoryAnswer _
  | .accessTimeout | .pixelSent | .endSent | .panelAccept | .panelRefuse | .answerTimeout | .sync
  | .abortMessageSent => true

end Sys2Proof
end

