-- ==== Sys2Proof/Certificates/Slice0/Obligations.lean ====
section
/-!
DEFINITION. The statements about this model that are to be proved: what each family of commands does and leaves alone, what
every step keeps, and what the formats and layouts promise.
-/

open Sys2Proof Sys2Proof.Machine

/-! ### The step, the queue of commands, time -/

/-- The step carries out the command at the front of the queue, over the state with the queue's rest. The model's choice (log 2):
with no command waiting, one microsecond passes; while no entry is held and no timer runs out in it, the timers advance
and nothing else changes. -/
def Obligations.StepTakesFrontCommand : Prop :=
  (∀ (c : Instr) (s : State), step { s with pending := c :: s.pending } = exec c s)
  ∧ ∀ s : State, s.pending = [] → s.merge.entries = []
    → (∀ a ∈ s.port.access, a.timer + 1 < a.limit)
    → (∀ t ∈ s.streamer.answerTimer, t + 1 < s.streamer.answerLimit * 100)
    → step s = .next { s with
        port := { s.port with access := s.port.access.map fun a => { a with timer := a.timer + 1 } }
        streamer := { s.streamer with answerTimer := s.streamer.answerTimer.map fun t => t + 1 } }

/-- Every command completes with a next state, in every state, and leaves the queue of waiting commands alone. That no command
stops is read from the specification, which names no stop (DEDUCED, log 22); the queue of commands is the model's own
(log 20). -/
def Obligations.EveryCommandCompletes : Prop :=
  ∀ (c : Instr) (s : State), ∃ t, exec c s = .next t ∧ t.pending = s.pending

/-! ### Frames as bytes -/

/-- A frame's bytes decode to the command they were written for, every well-formed frame command is written by the bytes it is
decoded from, and a transfer cut inside a byte is a broken frame (R12, R14, R160, R172 to R179). That this holds of a transfer
cut inside its first byte is the model's reading (log 18). -/
def Obligations.FrameDecodeInvertsEncode : Prop :=
  (∀ (i : Instr) (bytes : List Byte), i.wellFormed = true → encodeFrame i = some bytes →
    decodeTransfer bytes false = some i)
  ∧ (∀ (i : Instr) (bytes : List Byte), decodeTransfer bytes false = some i → i ≠ .unknownCommandFrame →
    i.wellFormed = true ∧ encodeFrame i = some bytes)
  ∧ ∀ bytes : List Byte, decodeTransfer bytes true = some .brokenFrame

/-! ### Reset and start-up -/

/-- The values the specification gives for power-on (R44, R72, R94, R123, R140, R156, R180, R191), with the levels of the pins
that R120, R128 and R156 fix then: an idle panel link, no access selected, the address lines above 4 MiB low, and the host
port's lines at rest. That the pins are read off State is the model's choice (log 21). -/
def Obligations.ResetValues : Prop :=
  (∀ n, State.reset.window n = .unused) ∧ State.reset.table.staging = none
  ∧ State.reset.merge = ⟨[], 12, 16⟩
  ∧ State.reset.damage.records = []
  ∧ State.reset.streamer = ⟨.off, .off, false, none, 0, none, .p16, 20, 2⟩
  ∧ State.reset.link.abortsOwed = 0
  ∧ State.reset.port = ⟨none, .mib4, 8, 0⟩
  ∧ State.reset.host.state = .held ∧ State.reset.host.requests = [] ∧ State.reset.host.action = none
  ∧ State.reset.mgmt.response = [0x02] ∧ State.reset.mgmt.slot = none ∧ State.reset.mgmt.arm = none
  ∧ State.reset.events = ⟨[], 0, 0x7F⟩ ∧ State.reset.irq = false
  ∧ State.reset.acksWrite = false ∧ State.reset.mgmt.transfer = none
  ∧ State.reset.psel = some true ∧ State.reset.pclk = some false ∧ State.reset.pdo = some false
  ∧ State.reset.msel = false ∧ State.reset.memLine 22 = some false ∧ State.reset.memLine 23 = some false
  ∧ State.reset.host.incoming = none ∧ State.reset.host.sending = none
  ∧ State.reset.haccept = false ∧ State.reset.hans = false ∧ State.reset.herr = false ∧ State.reset.had = none

/-- Every invariant stated below holds at reset. -/
def Obligations.ResetMeetsInvariants : Prop :=
  MergeSound State.reset ∧ DrainChosen State.reset ∧ EventsSound State.reset ∧ TableSound State.reset
  ∧ HostSound State.reset ∧ StoreSound State.reset ∧ OperationSound State.reset ∧ StreamSound State.reset
  ∧ DamageSound State.reset ∧ State.reset.port.streamWait ≤ 8
  ∧ AddressSound State.reset ∧ SettingsSound State.reset

/-- POWER_ON and RESET_PIN with no programming in flight: every block takes its reset values, ASEL is sampled, the slots' bytes
stay, their held states are derived from the marks, and the start-up load examines slot 3 (R195, R209). The marks decide in
the order of R18: damaged set, started clear, finished clear, retired set, else WRITTEN. The model's own fields are set as
log 23 says. -/
def Obligations.ResetCommandsResetEveryBlock : Prop :=
  (∀ (m : List Host.Cell) (n : Fin 4),
    let mark (offset : Nat) : Byte := otpRead m (512 * n.val + offset)
    slotMarks m n = if mark 511 ≠ 0xFF then .damaged
      else if mark 508 = 0xFF then .blank
      else if mark 509 = 0xFF then .damaged
      else if mark 510 ≠ 0xFF then .retired
      else .written)
  ∧ ∀ (asel : Bool) (s : State), s.store.programming = none →
    exec (.powerOn asel) s = exec (.resetPin asel) s
    ∧ exec (.powerOn asel) s = .next { State.reset with
        mgmt := ⟨asel, [0x02], none, none, none, none⟩
        store :=
          { otp := s.store.otp
            held := #v[slotMarks s.store.otp 0, slotMarks s.store.otp 1, slotMarks s.store.otp 2, slotMarks s.store.otp 3]
            programming := none
            load := some ⟨.startUp, .examining 3⟩ }
        freeCount := s.freeCount
        pending := s.pending }

/-- POWER_ON and RESET_PIN during a PROFILE_WRITE (R201): each byte of the image being written has at most the bits that the image
programs turned to 0, which of them is free (log 14); every other byte stays; a slot whose started mark is set and whose
finished and damaged marks are clear is derived DAMAGED; and every other block takes its reset values and the start-up load
begins, as with no programming in flight (R209; the model's own fields: log 23). -/
def Obligations.ResetInterruptsProgramming : Prop :=
  ∀ (asel : Bool) (s : State) (w : Programming), otpWf s.store.otp = true →
    s.store.programming = some w → w.image.length = 508 →
    ∃ (t : State) (left : Nat → Byte),
      exec (.powerOn asel) s = .next t ∧ exec (.resetPin asel) s = .next t
      ∧ t.store.programming = none ∧ t.mgmt.slot = none ∧ t.events.records = []
      ∧ t = { State.reset with
          mgmt := ⟨asel, [0x02], none, none, none, none⟩
          store :=
            { otp := t.store.otp
              held := #v[slotMarks t.store.otp 0, slotMarks t.store.otp 1, slotMarks t.store.otp 2, slotMarks t.store.otp 3]
              programming := none
              load := some ⟨.startUp, .examining 3⟩ }
          freeCount := t.freeCount
          pending := s.pending }
      ∧ (∀ i < 508, otpRead t.store.otp (slotAddress w.slot i)
          = otpRead s.store.otp (slotAddress w.slot i) &&& (w.image.getD i 0 ||| left i))
      ∧ (∀ a, (∀ i < 508, a ≠ slotAddress w.slot i) → otpRead t.store.otp a = otpRead s.store.otp a)
      ∧ (otpRead s.store.otp (slotAddress w.slot 508) ≠ 0xFF → otpRead s.store.otp (slotAddress w.slot 509) = 0xFF →
          t.heldState w.slot = .damaged)

/-- SLOT_EXAMINATION (R204, R208, R211): a good slot is to be applied; in an auto-load any other slot sends the load to the next
lower slot, or below slot 0 to the factory values; a WRITTEN slot that is not good takes its damaged mark, becomes DAMAGED
and posts PROFILE_FAULT, and in a PROFILE_LOAD that ends the load with FAULT. An image is good when its checksum matches,
bytes 0 to 8 are in the ranges of R18, and the padding is 00h; a slot's image is its 512 bytes in the store (R18, R195). -/
def Obligations.SlotExaminationOutcomes : Prop :=
  (∀ image : List Byte,
    let b (i : Nat) : Nat := (image.getD i 0).toNat
    imageGood image = true ↔
      ((image.take 506).map BitVec.toNat).sum % 65536 = b 506 + 256 * b 507
      ∧ b 0 ≤ 4 ∧ (1 ≤ b 1 ∧ b 1 ≤ 64) ∧ (1 ≤ b 2 ∧ b 2 ≤ 16) ∧ b 4 ≤ 2 ∧ b 5 ≤ 1 ∧ 1 ≤ b 6 ∧ b 7 ≤ 3 ∧ b 8 < 128
      ∧ (∀ i, 10 ≤ i → i < 16 → b i = 0) ∧ ∀ i, 272 ≤ i → i < 506 → b i = 0)
  ∧ (∀ (m : List Host.Cell) (n : Fin 4),
    (slotImage m n).length = 512 ∧ ∀ i < 512, (slotImage m n)[i]? = some (otpRead m (512 * n.val + i)))
  ∧ ∀ (s : State) (kind : LoadKind) (n : Fin 4), s.store.load = some ⟨kind, .examining n⟩ →
    let lower : LoadStage := if n = 0 then .applying none else .examining (n - 1)
    let rejected := (s.markSlot n 511 .damaged).post (.profileFault n none .fault)
    (s.heldState n = .written → imageGood (slotImage s.store.otp n) = true →
      exec .slotExamination s = .next (s.setLoad (some ⟨kind, .applying (some n)⟩)))
    ∧ ((kind = .startUp ∨ kind = .softReset) → s.heldState n ≠ .written →
      exec .slotExamination s = .next (s.setLoad (some ⟨kind, lower⟩)))
    ∧ ((kind = .startUp ∨ kind = .softReset) → s.heldState n = .written → imageGood (slotImage s.store.otp n) = false →
      exec .slotExamination s = .next (rejected.setLoad (some ⟨kind, lower⟩)))
    ∧ (∀ m, kind = .profileLoad m → s.heldState n = .written → imageGood (slotImage s.store.otp n) = false →
      exec .slotExamination s
        = .next (((rejected.endLongOp 0x63 .fault).setPort .accepting).setLoad none))

/-- APPLY_GLOBAL_SETTINGS where no slot is good (R169, R181, R207 to R210): with the port free and the merge queue empty, the
factory values are applied and PROFILE_LOADED is posted with no slot; a start-up ends with the host port ACCEPTING and the
response buffer DONE, and a SOFT_RESET with the slot emptied, OP_DONE(SOFT_RESET, DONE) posted after it and the host port
ACCEPTING. -/
def Obligations.FactoryStartUpEnds : Prop :=
  ∀ s : State, s.port.access = none → s.merge.entries = [] →
    let applied (response : List Byte) (slot : Option LongOp) : State :=
      { s with
        port := { s.port with memSize := .mib4, waitLimit := 8 }
        merge := ⟨[], 12, 16⟩
        streamer := { s.streamer with
          state := .off, mode := .off, passOpen := false, region := none, answerTimer := none
          panelFormat := .p16, answerLimit := 20, retries := 2 }
        events := { s.events with mask := 0x7F }
        mgmt := { s.mgmt with loadOutcome := none, response := response, slot := slot }
        host := { s.host with state := .accepting }
        store := { s.store with load := none } }
    (s.store.load = some ⟨.startUp, .applying none⟩ →
      exec .applyGlobalSettings s = .next ((applied [0x00] s.mgmt.slot).post (.profileLoaded none)))
    ∧ (s.store.load = some ⟨.softReset, .applying none⟩ →
      exec .applyGlobalSettings s
        = .next (((applied s.mgmt.response none).post (.profileLoaded none)).post (.opDone 0x0F .done)))

/-- APPLY_GLOBAL_SETTINGS of a good slot (R27, R125, R205, R206, R208 to R211): while an access is in flight nothing changes; with
the port free every setting takes the image's value, then each present descriptor in window order opens its window or
posts PROFILE_FAULT with the result of the first of checks 5 to 7 of R22 that fails, the host ranges of the windows opened
so far included; then PROFILE_LOADED is posted and the load ends as its kind says. Where the settings and the descriptors
stand in an image is R18's layout. -/
def Obligations.ImageLoadAppliesSettings : Prop :=
  (∀ image : List Byte,
    let b (i : Nat) : Nat := (image.getD i 0).toNat
    (∀ g, parseSettings image = some g →
      g.memSize.bytes = 1048576 * 2 ^ b 0 ∧ g.waitLimit = b 1 ∧ g.highWater = b 2 ∧ g.linger = b 3
      ∧ g.mode = (if b 4 = 0 then .off else if b 4 = 1 then .free else .gated)
      ∧ g.panelFormat = (if b 5 = 0 then .p16 else .p24)
      ∧ g.answerLimit = b 6 ∧ g.retries = b 7 ∧ g.mask.toNat = b 8)
    ∧ ∀ n : Fin 8, ((b 9).testBit n.val = false → imageDescriptor image n = none)
      ∧ ((b 9).testBit n.val = true → ∃ d, imageDescriptor image n = some d
        ∧ ∀ i < 32, (d.getD i 0).toNat = b (16 + 32 * n.val + i)))
  ∧ ∀ (s : State) (kind : LoadKind) (n : Fin 4) (g : Settings),
    s.store.load = some ⟨kind, .applying (some n)⟩ → parseSettings (slotImage s.store.otp n) = some g →
    s.damage.records = [] →
    (s.port.access ≠ none → exec .applyGlobalSettings s = .next s)
    ∧ (s.port.access = none → ∃ u : Nat → State,
      u 0 = State.chooseDrain { s with
        port := { s.port with memSize := g.memSize, waitLimit := g.waitLimit }
        merge := { s.merge with highWater := g.highWater, linger := g.linger }
        streamer := { s.streamer with
          state := g.mode.loadedState, mode := g.mode, passOpen := false, region := none, answerTimer := none
          panelFormat := g.panelFormat, answerLimit := g.answerLimit, retries := g.retries }
        events := { s.events with mask := g.mask }
        mgmt := { s.mgmt with loadOutcome := some n } }
      ∧ (∀ w : Fin 8, match imageDescriptor (slotImage s.store.otp n) w with
        | none => u (w.val + 1) = u w.val
        | some d =>
          let fault (r : Result) : Prop := u (w.val + 1) = (u w.val).post (.profileFault n (some w) r)
          ((parseDescriptor d).rangeCheck = none → fault .badArg)
          ∧ ∀ v, (parseDescriptor d).rangeCheck = some v →
            (g.memSize.bytes < v.memBase + v.height * v.pitch * 4 → fault .range)
            ∧ (v.memBase + v.height * v.pitch * 4 ≤ g.memSize.bytes →
              (4294967296 < v.hostBase + v.hostSpan ∨ (∃ m : Fin 8, ∃ x ∈ ((u w.val).window m).values?, v.apart x = false) →
                fault .overlap)
              ∧ (v.hostBase + v.hostSpan ≤ 4294967296 → (∀ m : Fin 8, ∀ x ∈ ((u w.val).window m).values?, v.apart x = true) →
                u (w.val + 1) = (u w.val).setWindow w (.active v))))
      ∧ (let loaded := (u 8).post (.profileLoaded (some n))
        let ended (response : List Byte) (slot : Option LongOp) : State :=
          { loaded with
            mgmt := { loaded.mgmt with response := response, slot := slot }
            host := { loaded.host with state := .accepting }
            store := { loaded.store with load := none } }
        exec .applyGlobalSettings s = .next (match kind with
          | .startUp => ended [0x00] s.mgmt.slot
          | .softReset => (ended s.mgmt.response none).post (.opDone 0x0F .done)
          | .profileLoad _ => (ended s.mgmt.response none).post (.opDone 0x63 .done))))

/-! ### The management port -/

/-- A frame that is no command is answered ABORTED or BAD_ARG and consumes the arm (R160, R165); while the start-up load runs no
frame is taken at all (R180), which the model takes as no change (log 19). On the bus (R159, R161, R180, R181): the port
takes part in a transfer to its own address alone, and in a write only if no start-up load runs at its address byte; a
transfer it takes no part in changes nothing to its end; a read sends the buffer as it stood at the address byte; and a
whole write transfer carries out the command of its bytes. That frames reach the device as commands of the queue or byte by
byte is the model's choice (log 18). -/
def Obligations.BadFramesAndStartUp : Prop :=
  (∀ s : State, s.startingUp = true ↔ ∃ stage, s.store.load = some ⟨.startUp, stage⟩)
  ∧ (∀ s : State, s.ready →
    exec .brokenFrame s = .next (s.reply [0x08]) ∧ exec .unknownCommandFrame s = .next (s.reply [0x03]))
  ∧ (∀ (c : Instr) (s : State), c.isFrame = true → s.startingUp = true → exec c s = .next s)
  ∧ (∀ (s : State) (a : BitVec 7) (read : Bool), (a ≠ if s.mgmt.asel = true then 0x2D else 0x2C) →
    busStep (.address a read) s = .next { s with mgmt := { s.mgmt with transfer := none } })
  ∧ (∀ s : State, s.startingUp = true →
    busStep (.address s.i2cAddress false) s = .next { s with mgmt := { s.mgmt with transfer := none } })
  ∧ (∀ (s : State) (b : Byte) (ack inByte : Bool), s.mgmt.transfer = none →
    busStep (.written b) s = .next s ∧ busStep (.taken ack) s = .next s ∧ busStep (.ended inByte) s = .next s)
  ∧ (∀ s : State, busStep (.address s.i2cAddress true) s
      = .next { s with mgmt := { s.mgmt with transfer := some (.read s.mgmt.response 0) } })
  ∧ (∀ (s : State) (content : List Byte) (k : Nat), s.mgmt.transfer = some (.read content k) →
    s.sendingByte = some (content.getD k 0x00)
    ∧ busStep (.taken true) s = .next { s with mgmt := { s.mgmt with transfer := some (.read content (k + 1)) } })
  ∧ ∀ (s : State) (bytes : List Byte) (inByte : Bool), s.ready → s.mgmt.transfer = none →
    let sent := bytes.foldl (fun t b => t.bus (.written b)) (s.bus (.address s.i2cAddress false))
    (sent.acksByte = true ↔ bytes.length < 33)
    ∧ busStep (.ended inByte) sent = match decodeTransfer bytes inByte with
      | some c => exec c s
      | none => .next s

/-- A frame answered BUSY, BAD_ARG, BAD_STATE, OVERLAP, RANGE or ABORTED changes the state of no block: it replaces the response
buffer and consumes the arm (R162). -/
def Obligations.RefusedFrameChangesNoBlock : Prop :=
  ∀ (c : Instr) (s t : State), c.isFrame = true → s.ready → exec c s = .next t →
    (∃ b ∈ t.mgmt.response.head?, b = 0x02 ∨ b = 0x03 ∨ b = 0x04 ∨ b = 0x05 ∨ b = 0x06 ∨ b = 0x08) →
    t = s.reply t.mgmt.response

/-- Every frame taken consumes the arm, and only a PROFILE_ARM leaves one (R165). The response buffer is not changed by events, by
the end of a long operation or by the activity of other blocks: of the commands that are no frames only power-on, the
RESET pin and the end of the start-up load change it (R162). -/
def Obligations.ArmAndResponseOwners : Prop :=
  (∀ (c : Instr) (s t : State), c.isFrame = true → s.ready → exec c s = .next t →
    t.mgmt.arm = none ∨ ∃ (b : Byte) (k : Fin 4), c = .profileArm b ∧ b.toNat = k.val ∧ t.mgmt.arm = some k)
  ∧ ∀ (c : Instr) (s t : State), c.isFrame = false → exec c s = .next t →
    (∀ asel, c ≠ .powerOn asel ∧ c ≠ .resetPin asel) → (c = .applyGlobalSettings → s.ready) →
    t.mgmt.response = s.mgmt.response ∧ t.mgmt.asel = s.mgmt.asel

/-- STATUS, IDENT and QUERY_WINDOW change nothing but the response and the arm, and return what stands at their taking (R43, R166,
R167): QUERY_WINDOW the state code and the descriptor of the current values, 32 bytes of 00h for an UNUSED window, and
BAD_ARG above 7. -/
def Obligations.ReportingCommands : Prop :=
  (∀ (s : State) (b : Byte), s.ready →
    (8 ≤ b.toNat → exec (.queryWindow b) s = .next (s.reply [0x03]))
    ∧ ∀ n : Fin 8, b.toNat = n.val →
      (s.window n = .unused → exec (.queryWindow b) s = .next (s.reply (0x00 :: 0x00 :: List.replicate 32 0x00)))
      ∧ (∀ v, s.window n = .active v → exec (.queryWindow b) s = .next (s.reply (0x00 :: 0x01 :: v.descriptor)))
      ∧ (∀ v, s.window n = .draining v → exec (.queryWindow b) s = .next (s.reply (0x00 :: 0x02 :: v.descriptor))))
  ∧ ∀ s : State, s.ready →
    exec .ident s = .next (s.reply ([0x00, 0x22, 0x4A, 0x03] ++ [byteOf (s.heldState 0).code, byteOf (s.heldState 1).code,
      byteOf (s.heldState 2).code, byteOf (s.heldState 3).code]))
    ∧ ∃ data : List Byte, exec .status s = .next (s.reply (0x00 :: data)) ∧ data.length = 18
      ∧ (∀ n : Fin 8, data[n.val]? = some (byteOf (s.window n).code))
      ∧ data[8]? = some (byteOf s.merge.entries.length) ∧ data[9]? = some (if s.urgent = true then 0x01 else 0x00)
      ∧ data[10]? = some (byteOf s.damage.records.length) ∧ data[11]? = some (byteOf s.streamer.state.code)
      ∧ data[12]? = some (byteOf s.events.records.length)
      ∧ (s.mgmt.slot = none → data[13]? = some 0x00 ∧ data[14]? = some 0x00 ∧ data[15]? = some 0x00)
      ∧ (∀ n, s.mgmt.slot = some (.closeWindow n) →
          data[13]? = some 0x12 ∧ data[14]? = some (byteOf n.val) ∧ data[15]? = some 0x00)
      ∧ (∀ sel ws, s.mgmt.slot = some (.flush sel ws) → data[13]? = some 0x20 ∧ data[15]? = some 0x00
          ∧ (sel = none → data[14]? = some 0xFF) ∧ (∀ n, sel = some n → data[14]? = some (byteOf n.val)))
      ∧ (∀ k, s.mgmt.slot = some (.profileWrite k) →
          data[13]? = some 0x61 ∧ data[14]? = some (byteOf k.val) ∧ data[15]? = some 0x00)
      ∧ (∀ k, s.mgmt.slot = some (.profileLoad k) →
          data[13]? = some 0x63 ∧ data[14]? = some (byteOf k.val) ∧ data[15]? = some 0x00)
      ∧ (∀ p, s.mgmt.slot = some (.softReset p) →
          data[13]? = some 0x0F ∧ data[14]? = some 0x00 ∧ data[15]? = some (byteOf p.number))
      ∧ (s.mgmt.arm = none → data[16]? = some 0xFF) ∧ (∀ k, s.mgmt.arm = some k → data[16]? = some (byteOf k.val))
      ∧ (s.mgmt.loadOutcome = none → data[17]? = some 0xFF)
      ∧ (∀ k, s.mgmt.loadOutcome = some k → data[17]? = some (byteOf k.val))

/-- SOFT_RESET (R164, R169): BUSY over a PROFILE_WRITE or a SOFT_RESET; over any other occupant it takes the slot, ends that
operation and a PROFILE_LOAD's load, and makes the host port REFUSING. With a beat left to be done it waits in phase 2;
with none, phase 3 marks every entry and drains them; with none and the queue empty, phases 3 to 6 follow at once, and a
region in flight is aborted. That what follows at once belongs to the same command is the model's choice (log 6). -/
def Obligations.SoftResetTaken : Prop :=
  (∀ h : HostPort, h.quiet = true ↔ h.action = none ∧ ∀ r ∈ h.requests, r.length ≤ r.outcomes.length)
  ∧ ∀ s : State, s.ready →
    let free := s.mgmt.slot = none ∨ (∃ n, s.mgmt.slot = some (.closeWindow n)) ∨ (∃ f ws, s.mgmt.slot = some (.flush f ws))
      ∨ (∃ n, s.mgmt.slot = some (.profileLoad n))
    let refusing : State := { s with host := { s.host with state := .refusing }, store := { s.store with load := none } }
    ((∃ n, s.mgmt.slot = some (.profileWrite n)) ∨ (∃ p, s.mgmt.slot = some (.softReset p)) →
      exec .softReset s = .next (s.reply [0x02]))
    ∧ (free → s.host.quiet = false → DrainChosen s → exec .softReset s = .next (State.reply
        { refusing with mgmt := { s.mgmt with slot := some (.softReset .phase2) } } [0x01]))
    ∧ (free → s.host.quiet = true → s.merge.entries ≠ [] → exec .softReset s = .next (State.reply (State.chooseDrain
        { refusing with
          merge := { s.merge with entries := s.merge.entries.map fun e => { e with flushMark := true } }
          mgmt := { s.mgmt with slot := some (.softReset .phase3) } }) [0x01]))
    ∧ (free → s.host.quiet = true → s.merge.entries = [] → s.streamer.region = none →
        exec .softReset s = .next (refusing.phase7Start.reply [0x01]))
    ∧ (free → s.host.quiet = true → s.merge.entries = [] → s.streamer.region.isSome →
        exec .softReset s = .next (refusing.abortRegion.phase7Start.reply [0x01]))

/-- SOFT_RESET_PHASE2_END and SOFT_RESET_PHASE3_END (R73, R169): phase 2 ends once no beat is left to be done and every entry
is then flush-marked, the drain choice being made over an urgent queue; phase 3 ends once the queue is empty, at once where
phase 2 ends over an empty queue, with a region in flight aborted. While the condition does not hold, and outside these
phases, nothing changes (the model's choice, logs 5 and 6). -/
def Obligations.SoftResetPhasesEnd : Prop :=
  ∀ s : State,
    (s.mgmt.slot = some (.softReset .phase2) → s.host.quiet = true →
      (s.merge.entries ≠ [] → exec .softResetPhase2End s = .next (State.chooseDrain
        { s with
          merge := { s.merge with entries := s.merge.entries.map fun e => { e with flushMark := true } }
          mgmt := { s.mgmt with slot := some (.softReset .phase3) } }))
      ∧ (s.merge.entries = [] → s.streamer.region = none → exec .softResetPhase2End s = .next s.phase7Start)
      ∧ (s.merge.entries = [] → s.streamer.region.isSome →
        exec .softResetPhase2End s = .next s.abortRegion.phase7Start))
    ∧ (s.mgmt.slot = some (.softReset .phase2) → s.host.quiet = false → DrainChosen s →
      exec .softResetPhase2End s = .next s)
    ∧ (s.mgmt.slot ≠ some (.softReset .phase2) → exec .softResetPhase2End s = .next s)
    ∧ (s.mgmt.slot = some (.softReset .phase3) → s.merge.entries = [] → s.streamer.region = none →
      exec .softResetPhase3End s = .next (State.phase7Start s))
    ∧ (s.mgmt.slot = some (.softReset .phase3) → s.merge.entries = [] → s.streamer.region.isSome →
      exec .softResetPhase3End s = .next (State.phase7Start s.abortRegion))
    ∧ (s.mgmt.slot = some (.softReset .phase3) → s.merge.entries ≠ [] → exec .softResetPhase3End s = .next s)
    ∧ (s.mgmt.slot ≠ some (.softReset .phase3) → exec .softResetPhase3End s = .next s)

/-! ### The aperture table -/

/-- STAGE_WINDOW and OPEN_WINDOW carried out (R21, R22, R26): a descriptor that is not malformed replaces the staging content
with no range check; an UNUSED window whose staged descriptor passes the range, memory and host range checks becomes
ACTIVE with its values; nothing else changes but the response and the arm. -/
def Obligations.StageAndOpenWindow : Prop :=
  ∀ s : State, s.ready → s.resetOrLoad = false →
    (∀ d : List Byte, d.length = 32 → sumBytes d % 256 = 0 →
      exec (.stageWindow d) s = .next (State.reply { s with table := { s.table with staging := some d } } [0x00]))
    ∧ (∀ d : List Byte, d.length = 32 → sumBytes d % 256 ≠ 0 → exec (.stageWindow d) s = .next (s.reply [0x03]))
    ∧ (∀ (n : Fin 8) (d : List Byte) (v : WindowValues), s.table.staging = some d → s.window n = .unused →
      (parseDescriptor d).rangeCheck = some v → v.memBase + v.height * v.pitch * 4 ≤ s.port.memSize.bytes →
      v.hostBase + v.hostSpan ≤ 4294967296 → (∀ m : Fin 8, ∀ w ∈ (s.window m).values?, v.apart w = true) →
      exec (.openWindow (byteOf n.val)) s = .next ((s.setWindow n (.active v)).reply [0x00]))

/-- The checks of OPEN_WINDOW in order, each with its result (R22 to R25); STAGE_WINDOW answers BUSY in the same cases (R21). The
fields of a descriptor stand where R13 puts them, and the range check passes exactly on the conditions of R23, with the host
span of R20; two host ranges are apart when they share no address (R25), and a command is BUSY while a SOFT_RESET or a
PROFILE_LOAD is in the slot. -/
def Obligations.OpenWindowCheckOrder : Prop :=
  (∀ d : List Byte,
    let b (i : Nat) : Nat := (d.getD i 0).toNat
    let word (i : Nat) : Nat := b i + 256 * b (i + 1) + 65536 * b (i + 2) + 16777216 * b (i + 3)
    let pair (i : Nat) : Nat × Nat := (b i + 256 * (b (i + 1) % 16), b (i + 1) / 16 + 16 * b (i + 2))
    let p := parseDescriptor d
    (p.malformed = true ↔ d.length ≠ 32 ∨ (d.map BitVec.toNat).sum % 256 ≠ 0)
    ∧ p.hostBase = word 0 ∧ p.memBase = word 4 ∧ p.width = b 8 + 256 * b 9 ∧ p.height = b 10 + 256 * b 11
    ∧ p.pitch = b 12 + 256 * b 13 ∧ p.scroll = b 14 + 256 * b 15
    ∧ p.hostCode = b 16 % 4 ∧ p.formatPad = b 16 / 4 % 4 ∧ p.storedCode = b 16 / 16 % 8
    ∧ p.order = (if b 16 / 128 = 0 then .rgb else .bgr)
    ∧ p.mirrorX = (b 17).testBit 0 ∧ p.mirrorY = (b 17).testBit 1 ∧ p.accessCode = b 17 / 4 % 4
    ∧ p.key = (if (b 17).testBit 4 = true then some (word 18) else none)
    ∧ p.clip = (if (b 17).testBit 5 = true then some ⟨(pair 22).1, (pair 22).2, (pair 25).1, (pair 25).2⟩ else none)
    ∧ p.tracking = (b 17).testBit 6
    ∧ p.origin = (if (b 17).testBit 7 = true then some (pair 28) else none))
  ∧ (∀ (p : Descriptor) (v : WindowValues),
    let host := if p.hostCode = 0 then HostFormat.h8 else if p.hostCode = 1 then .h16 else .h32
    let stored := if p.storedCode = 0 then StoredFormat.l4 else if p.storedCode = 1 then .c8
      else if p.storedCode = 2 then .c12 else if p.storedCode = 3 then .c16
      else if p.storedCode = 4 then .c24 else .c32
    let access := if p.accessCode = 0 then AccessMode.readWrite else if p.accessCode = 1 then .readOnly else .writeOnly
    let bytes := if p.hostCode = 0 then 1 else if p.hostCode = 1 then 2 else 4
    let bits := if p.storedCode = 4 then 24 else if p.storedCode = 5 then 32 else 4 * (p.storedCode + 1)
    let largest := if p.hostCode = 0 then 255 else if p.hostCode = 1 then 65535 else 16777215
    p.rangeCheck = some v ↔
      p.malformed = false ∧ p.formatPad = 0 ∧ p.hostCode ≤ 2 ∧ p.storedCode ≤ 5 ∧ p.accessCode ≤ 2
      ∧ p.hostBase % 4096 = 0 ∧ p.memBase % 4 = 0
      ∧ (1 ≤ p.width ∧ p.width ≤ 4096) ∧ (1 ≤ p.height ∧ p.height ≤ 4096) ∧ p.width * bytes % 4 = 0
      ∧ (1 ≤ p.pitch ∧ p.pitch ≤ 4096) ∧ p.width * bits ≤ 32 * p.pitch ∧ p.scroll < p.height
      ∧ (∀ k ∈ p.key, k ≤ largest)
      ∧ (∀ c ∈ p.clip, c.x0 ≤ c.x1 ∧ c.x1 < p.width ∧ c.y0 ≤ c.y1 ∧ c.y1 < p.height)
      ∧ (p.tracking = true → p.origin ≠ none)
      ∧ (∀ o ∈ p.origin, o.1 + p.width - 1 ≤ 4095 ∧ o.2 + p.height - 1 ≤ 4095)
      ∧ v = { hostBase := p.hostBase, hostSpan := (p.width * p.height * bytes + 4095) / 4096 * 4096, memBase := p.memBase
              width := p.width, height := p.height, hostFormat := host, storedFormat := stored, order := p.order
              mirrorX := p.mirrorX, mirrorY := p.mirrorY, pitch := p.pitch, scroll := p.scroll, access := access
              key := p.key, clip := p.clip, tracking := p.tracking, origin := p.origin })
  ∧ (∀ v w : WindowValues,
    v.apart w = true ↔ v.hostBase + v.hostSpan ≤ w.hostBase ∨ w.hostBase + w.hostSpan ≤ v.hostBase)
  ∧ (∀ s : State, s.resetOrLoad = true ↔
    (∃ p, s.mgmt.slot = some (.softReset p)) ∨ ∃ n, s.mgmt.slot = some (.profileLoad n))
  ∧ ∀ (s : State) (b : Byte), s.ready →
    (8 ≤ b.toNat → exec (.openWindow b) s = .next (s.reply [0x03]))
    ∧ (s.resetOrLoad = true → b.toNat < 8 → exec (.openWindow b) s = .next (s.reply [0x02]))
    ∧ (s.resetOrLoad = true → ∀ d : List Byte, d.length = 32 → exec (.stageWindow d) s = .next (s.reply [0x02]))
    ∧ ∀ n : Fin 8, b.toNat = n.val → s.resetOrLoad = false →
      (s.window n ≠ .unused → exec (.openWindow b) s = .next (s.reply [0x04]))
      ∧ (s.window n = .unused → s.table.staging = none → exec (.openWindow b) s = .next (s.reply [0x04]))
      ∧ ∀ d, s.window n = .unused → s.table.staging = some d →
        ((parseDescriptor d).rangeCheck = none → exec (.openWindow b) s = .next (s.reply [0x03]))
        ∧ ∀ v, (parseDescriptor d).rangeCheck = some v →
          (s.port.memSize.bytes < v.memBase + v.height * v.pitch * 4 → exec (.openWindow b) s = .next (s.reply [0x06]))
          ∧ (v.memBase + v.height * v.pitch * 4 ≤ s.port.memSize.bytes →
              4294967296 < v.hostBase + v.hostSpan ∨ (∃ m : Fin 8, ∃ w ∈ (s.window m).values?, v.apart w = false) →
              exec (.openWindow b) s = .next (s.reply [0x05]))

/-- CLOSE_WINDOW (R28, R30, R68, R86), for a window without a region in flight: its checks; then the window is DRAINING, its
damage records are removed, its entries are flush-marked and the slot holds the close; where nothing of it is left to
drain the window is UNUSED at once and OP_DONE is posted. CLOSE_DRAIN_COMPLETE ends a close in the slot once its drain is
complete, and before that changes nothing. What follows at once belongs to the same command (the model's choice, log 6); a
taken slot is BUSY whatever the window's state, and so is a DRAINING window's own close (the model's choice, log 29). -/
def Obligations.CloseWindowTaken : Prop :=
  (∀ (s : State) (n : Fin 8),
    (s.host.writeBeatOf n = true ↔ ∃ lanes run, s.host.action = some (.write (.window n) lanes run))
    ∧ (s.drainComplete n = true ↔ (∀ e ∈ s.merge.entries, e.creator ≠ .window n) ∧ s.host.writeBeatOf n = false)
    ∧ (s.regionOf n = true ↔ ∃ r, s.streamer.region = some r ∧ r.window = n))
  ∧ (∀ (s : State) (n : Fin 8), s.mgmt.slot = some (.closeWindow n) →
    ((∀ e ∈ s.merge.entries, e.creator ≠ .window n) → s.host.writeBeatOf n = false →
      exec .closeDrainComplete s = .next (State.post
        { s.setWindow n .unused with mgmt := { s.mgmt with slot := none } } (.opDone 0x12 .done)))
    ∧ ((∃ e ∈ s.merge.entries, e.creator = .window n) ∨ s.host.writeBeatOf n = true →
      exec .closeDrainComplete s = .next s))
  ∧ ∀ (s : State) (b : Byte), s.ready →
    (8 ≤ b.toNat → exec (.closeWindow b) s = .next (s.reply [0x03]))
    ∧ (b.toNat < 8 → s.mgmt.slot.isSome → exec (.closeWindow b) s = .next (s.reply [0x02]))
    ∧ ∀ n : Fin 8, b.toNat = n.val → s.mgmt.slot = none →
      (s.window n = .unused ∨ (∃ v, s.window n = .draining v) → exec (.closeWindow b) s = .next (s.reply [0x04]))
      ∧ ∀ v, s.window n = .active v → s.regionOf n = false →
        let undamaged : State :=
          { s with damage := { s.damage with records := s.damage.records.filter fun r => r.window != n } }
        (s.drainComplete n = false → exec (.closeWindow b) s = .next (State.reply (State.chooseDrain
          { undamaged.setWindow n (.draining v) with
            merge := { s.merge with entries := s.merge.entries.map fun e =>
              if e.creator = .window n then { e with flushMark := true } else e }
            mgmt := { s.mgmt with slot := some (.closeWindow n) } }) [0x01]))
        ∧ (s.drainComplete n = true → exec (.closeWindow b) s = .next (State.reply (State.chooseDrain
          ((undamaged.setWindow n .unused).post (.opDone 0x12 .done))) [0x01]))

/-- CLOSE_WINDOW of the current record's window (R28, R30, R68, R86, R101, R110, R111): the window is DRAINING, its records are
gone, its region is aborted and ends by the mode, its entries are flush-marked, the slot holds the close and the answer is
ACCEPTED; where nothing of it is left to drain it is UNUSED at once and OP_DONE is posted. An abort owes one ABORT message
more, stops the answer timer, withdraws a STREAM read and abandons one in flight. The next region is that of the first record
the mode allows, whose REGION message waits for the ABORT message. ABORT messages not yet gone out are counted, and what
follows at once belongs to the same command (the model's choices, logs 10 and 6). -/
def Obligations.CloseAbortsRegion : Prop :=
  (∀ s : State, s.abortRegion = { s with
    link := { s.link with abortsOwed := s.link.abortsOwed + 1 }
    streamer := { s.streamer with region := none, answerTimer := none }
    port := { s.port with
      streamWait := if s.streamRequest? ≠ none then 0 else s.port.streamWait
      access := s.port.access.map fun a => if a.requester = .stream then { a with abandoned := true } else a } })
  ∧ ∀ (s : State) (b : Byte) (n : Fin 8) (v : WindowValues) (r : Region), s.ready → b.toNat = n.val → s.mgmt.slot = none →
    s.window n = .active v → s.streamer.region = some r → r.window = n →
    let left := s.damage.records.filter fun q => q.window != n
    let moved : State := State.regionOver
      { (s.setWindow n (.draining v)).abortRegion with damage := { s.damage with records := left } }
    (s.drainComplete n = false → exec (.closeWindow b) s = .next (State.reply (State.chooseDrain
      { moved with
        merge := { s.merge with entries := s.merge.entries.map fun e =>
          if e.creator = .window n then { e with flushMark := true } else e }
        mgmt := { s.mgmt with slot := some (.closeWindow n) } }) [0x01]))
    ∧ (s.drainComplete n = true → exec (.closeWindow b) s = .next (State.reply (State.chooseDrain
      ((moved.setWindow n .unused).post (.opDone 0x12 .done))) [0x01]))
    ∧ ∃ t, exec (.closeWindow b) s = .next t
      ∧ t.mgmt.response = [0x01] ∧ t.streamer.answerTimer = none
      ∧ (s.drainComplete n = false → t.window n = .draining v ∧ t.mgmt.slot = some (.closeWindow n)
          ∧ (∀ e ∈ t.merge.entries, e.creator = .window n → e.flushMark = true) ∧ t.events = s.events)
      ∧ (s.drainComplete n = true → t.window n = .unused ∧ t.mgmt.slot = none)
      ∧ t.link.abortsOwed = s.link.abortsOwed + 1 ∧ t.link.log = s.link.log
      ∧ (∀ a ∈ t.port.access, a.requester = .stream → a.abandoned = true)
      ∧ (∀ q ∈ t.damage.records, q.window ≠ n)
      ∧ (∀ q ∈ t.streamer.region, q.window ≠ n ∧ q.begun = false)
      ∧ (s.streamer.mode = .free → t.streamer.region.map (fun q => (q.window, q.rect))
          = (left.find? Record.isPending).map fun q => (q.window, q.rect))
      ∧ (s.streamer.mode = .gated → s.streamer.passOpen = true → t.streamer.region.map (fun q => (q.window, q.rect))
          = (left.find? Record.isMarked).map fun q => (q.window, q.rect))
      ∧ (s.streamer.mode = .gated → s.streamer.passOpen = false →
          t.streamer.region = none ∧ t.streamer.state = .waitSync)

/-- The descriptor that QUERY_WINDOW returns for a window can be staged unchanged and stages the same window (R43): it has 32
bytes, is not malformed, and passes the range check with the same values. -/
def Obligations.DescriptorRoundTrip : Prop :=
  ∀ v : WindowValues, v.sound →
    v.descriptor.length = 32 ∧ (parseDescriptor v.descriptor).malformed = false
    ∧ (parseDescriptor v.descriptor).rangeCheck = some v

/-- SET_SCROLL (R32, R33, R87, R101, R110, R111): a value of height or more is refused and an equal one changes nothing; a new
scroll with tracking off changes only the scroll; with tracking on, a window with records has all of them, a STREAMING one
too, replaced by one full-window PENDING record at the place of the earliest of them, marked if any of them was; a region of
it is aborted and the mode then chooses the next one over the list as it stands; and a window without records has the full
rectangle inserted. The new record takes the next stamp of the touch order (the model's choice, log 16), and ABORT messages
are counted (log 10). -/
def Obligations.SetScrollEffects : Prop :=
  ∀ (s : State) (b : Byte) (y : BitVec 16) (n : Fin 8) (v : WindowValues), s.ready → s.resetOrLoad = false →
    b.toNat = n.val → s.window n = .active v →
    let moved := s.setWindow n (.active { v with scroll := y.toNat })
    let full : Rect := ⟨0, 0, v.width - 1, v.height - 1⟩
    (v.height ≤ y.toNat → exec (.setScroll b y) s = .next (s.reply [0x03]))
    ∧ (y.toNat < v.height → y.toNat = v.scroll → exec (.setScroll b y) s = .next (s.reply [0x00]))
    ∧ (y.toNat < v.height → y.toNat ≠ v.scroll → v.tracking = false →
        exec (.setScroll b y) s = .next (moved.reply [0x00]))
    ∧ (y.toNat < v.height → y.toNat ≠ v.scroll → v.tracking = true →
        ∀ before r after, s.damage.records = before ++ r :: after → (∀ p ∈ before, p.window ≠ n) → r.window = n →
        let whole : DamageList :=
          ⟨before ++ ⟨n, full, .pending, s.damage.records.any (fun p => p.window == n && p.mark), s.damage.nextTouch⟩
            :: after.filter (fun p => p.window != n), s.damage.nextTouch + 1⟩
        (s.regionOf n = false → exec (.setScroll b y) s = .next (State.reply { moved with damage := whole } [0x00]))
        ∧ (s.regionOf n = true → exec (.setScroll b y) s
            = .next ((State.regionOver { moved.abortRegion with damage := whole }).reply [0x00])))
    ∧ (y.toNat < v.height → y.toNat ≠ v.scroll → v.tracking = true →
        s.damage.records.any (fun r => r.window == n) = true →
        ∃ t, exec (.setScroll b y) s = .next t ∧ t.window n = .active { v with scroll := y.toNat }
          ∧ (t.damage.records.filter fun r => r.window == n).map Record.rect = [full]
          ∧ (t.damage.records.filter fun r => r.window != n).map (fun r => (r.window, r.rect, r.mark))
              = (s.damage.records.filter fun r => r.window != n).map (fun r => (r.window, r.rect, r.mark))
          ∧ t.link.abortsOwed = s.link.abortsOwed + (if s.regionOf n = true then 1 else 0)
          ∧ (s.regionOf n = true → ∀ a ∈ t.port.access, a.requester = .stream → a.abandoned = true)
          ∧ t.merge = s.merge ∧ t.events = s.events ∧ t.host = s.host)
    ∧ (y.toNat < v.height → y.toNat ≠ v.scroll → v.tracking = true → s.regionOf n = false →
        s.damage.records.any (fun r => r.window == n) = false →
        exec (.setScroll b y) s = .next ((moved.insertDamage n full).takeIfIdle.reply [0x00]))

/-- SET_KEY, SET_CLIP and SET_ACCESS carried out on an ACTIVE window change that one field and nothing else (R34 to R36). -/
def Obligations.SetKeyClipAccess : Prop :=
  ∀ (s : State) (b : Byte) (n : Fin 8) (v : WindowValues), s.ready → s.resetOrLoad = false →
    b.toNat = n.val → s.window n = .active v →
    (∀ k : Word, k.toNat ≤ v.hostFormat.maxKey →
      exec (.setKey b (some k)) s = .next ((s.setWindow n (.active { v with key := some k.toNat })).reply [0x00]))
    ∧ exec (.setKey b none) s = .next ((s.setWindow n (.active { v with key := none })).reply [0x00])
    ∧ (∀ c : PackedRect, c.x0.toNat ≤ c.x1.toNat → c.x1.toNat < v.width → c.y0.toNat ≤ c.y1.toNat → c.y1.toNat < v.height →
      exec (.setClip b (some c)) s = .next ((s.setWindow n (.active { v with
        clip := some ⟨c.x0.toNat, c.y0.toNat, c.x1.toNat, c.y1.toNat⟩ })).reply [0x00]))
    ∧ exec (.setClip b none) s = .next ((s.setWindow n (.active { v with clip := none })).reply [0x00])
    ∧ exec (.setAccess b 0) s = .next ((s.setWindow n (.active { v with access := .readWrite })).reply [0x00])
    ∧ exec (.setAccess b 1) s = .next ((s.setWindow n (.active { v with access := .readOnly })).reply [0x00])
    ∧ exec (.setAccess b 2) s = .next ((s.setWindow n (.active { v with access := .writeOnly })).reply [0x00])

/-- The checks of the commands on an ACTIVE window in order (R31, R34 to R36, R84): the number, a reset or load in flight, the
window's state, then each command's own value checks. -/
def Obligations.ActiveWindowCheckOrder : Prop :=
  (∀ (c : PackedRect) (width height : Nat), (unpackRect c).within width height = true ↔
    (c.x0.toNat ≤ c.x1.toNat ∧ c.x1.toNat < width) ∧ c.y0.toNat ≤ c.y1.toNat ∧ c.y1.toNat < height)
  ∧ ∀ (s : State) (b : Byte) (y : BitVec 16) (k : Option Word) (q : Option PackedRect) (m : Byte) (r : PackedRect), s.ready →
    (∀ c ∈ [Instr.setScroll b y, Instr.setKey b k, Instr.setClip b q, Instr.setAccess b m, Instr.damageAdd b r],
      (8 ≤ b.toNat → exec c s = .next (s.reply [0x03]))
      ∧ (b.toNat < 8 → s.resetOrLoad = true → exec c s = .next (s.reply [0x02]))
      ∧ (∀ n : Fin 8, b.toNat = n.val → s.resetOrLoad = false →
          s.window n = .unused ∨ (∃ v, s.window n = .draining v) → exec c s = .next (s.reply [0x04])))
    ∧ ∀ (n : Fin 8) (v : WindowValues), b.toNat = n.val → s.resetOrLoad = false → s.window n = .active v →
      (∀ w ∈ k, v.hostFormat.maxKey < w.toNat → exec (.setKey b k) s = .next (s.reply [0x03]))
      ∧ (∀ c ∈ q, (unpackRect c).within v.width v.height = false → exec (.setClip b q) s = .next (s.reply [0x03]))
      ∧ (2 < m.toNat → exec (.setAccess b m) s = .next (s.reply [0x03]))
      ∧ (v.tracking = false → exec (.damageAdd b r) s = .next (s.reply [0x04]))
      ∧ (v.tracking = true → (unpackRect r).within v.width v.height = false →
          exec (.damageAdd b r) s = .next (s.reply [0x03]))

/-! ### The merge queue -/

/-- FLUSH and FLUSH_COMPLETE (R65, R66): the selected entries are flush-marked and are the wait set; an empty wait set ends the
FLUSH at once, and one that has become empty ends it with OP_DONE(FLUSH, DONE). What follows at once belongs to the same
command (the model's choice, log 6). -/
def Obligations.FlushMarksAndCompletes : Prop :=
  ∀ (s : State) (b : Byte), s.ready →
    (8 ≤ b.toNat → b ≠ 0xFF → exec (.flush b) s = .next (s.reply [0x03]))
    ∧ (b.toNat < 8 ∨ b = 0xFF → s.mgmt.slot.isSome → exec (.flush b) s = .next (s.reply [0x02]))
    ∧ (∀ sel : Option (Fin 8), (sel = none ∧ b = 0xFF) ∨ (∃ n, sel = some n ∧ b.toNat = n.val) → s.mgmt.slot = none →
        let covers : Entry → Bool := fun e => sel.all fun n => e.creator == .window n
        let marked := s.merge.entries.map fun e => if covers e = true then { e with flushMark := true } else e
        (s.merge.entries.any covers = true → exec (.flush b) s = .next (State.reply (State.chooseDrain
          { s with
            merge := { s.merge with entries := marked }
            mgmt := { s.mgmt with
              slot := some (.flush sel ((s.merge.entries.filter covers).map Entry.word)) } }) [0x01]))
        ∧ (s.merge.entries.any covers = false → DrainChosen s →
            exec (.flush b) s = .next ((s.post (.opDone 0x20 .done)).reply [0x01])))
    ∧ (∀ sel, s.mgmt.slot = some (.flush sel []) →
        exec .flushComplete s = .next (State.post { s with mgmt := { s.mgmt with slot := none } } (.opDone 0x20 .done)))
    ∧ (∀ sel a ws, s.mgmt.slot = some (.flush sel (a :: ws)) → exec .flushComplete s = .next s)

/-- QUEUE_CONFIG (R69, R70): both values are replaced together and the drain choice is made over the new conditions; a
high-water of 0 or above 16 is BAD_ARG. -/
def Obligations.QueueConfigApplies : Prop :=
  ∀ (s : State) (hw lg : Byte), s.ready →
    (1 ≤ hw.toNat → hw.toNat ≤ 16 → exec (.queueConfig hw lg) s = .next (State.reply (State.chooseDrain
      { s with merge := { s.merge with highWater := hw.toNat, linger := lg.toNat } }) [0x00]))
    ∧ (hw.toNat = 0 ∨ 16 < hw.toNat → exec (.queueConfig hw lg) s = .next (s.reply [0x03]))

/-- The drain choice and ENTRY_DUE (R53 to R56): the queue is urgent at its high-water, while a beat waits for more free entries
than there are, and in phase 3 of a SOFT_RESET; while the drain slot is taken nothing is chosen; else the oldest COLLECTING entry
of an urgent queue, and of another the oldest that is due, becomes PENDING_WRITE if it is complete, else FETCHING. When a
COLLECTING entry's age reaches the linger time the drain slot is taken. Ages run for every entry alike (the model's choice,
log 4). -/
def Obligations.EntryDueTakesDrainSlot : Prop :=
  (∀ s : State, s.urgent = true ↔
    s.merge.highWater ≤ s.merge.entries.length
    ∨ (∃ c lanes run words, s.host.action = some (.write c lanes run) ∧ s.merge.lacks lanes words
        ∧ 16 - s.merge.entries.length < words.length)
    ∨ s.mgmt.slot = some (.softReset .phase3))
  ∧ (∀ s : State,
    let may : Entry → Bool := fun e =>
      e.state == .collecting && (s.urgent || e.flushMark || decide (s.merge.linger ≤ e.age))
    (s.merge.drain?.isSome → s.chooseDrain = s)
    ∧ ((∀ e ∈ s.merge.entries, may e = false) → s.chooseDrain = s)
    ∧ ∀ older e newer, s.merge.drain? = none → s.merge.entries = older ++ e :: newer → (∀ f ∈ older, may f = false) →
      may e = true → s.chooseDrain = { s with merge := { s.merge with
        entries := older ++ { e with state := if e.complete = true then .pendingWrite else .fetching } :: newer } })
  ∧ ∀ (s : State) (w : BitVec 24) (e : Entry), s.merge.entry? w.toNat = some e → e.state = .collecting →
    let aged := s.merge.entries.map fun f => { f with age := f.age + (s.merge.linger - e.age) }
    ∃ t, exec (.entryDue w) s = .next t
      ∧ t = { s with merge := { s.merge with entries := t.merge.entries } }
      ∧ t.merge.drain?.isSome
      ∧ (s.merge.drain?.isSome → t.merge.entries = aged)
      ∧ (s.merge.drain? = none → s.urgent = true →
          ∃ f ∈ aged, aged.find? (fun g => g.state == .collecting) = some f
            ∧ t.merge.drain? = some { f with state := if f.complete = true then .pendingWrite else .fetching })
      ∧ (s.merge.drain? = none → s.urgent = false →
          ∃ f ∈ aged, aged.find? (fun g => g.due s.merge.linger) = some f
            ∧ t.merge.drain? = some { f with state := if f.complete = true then .pendingWrite else .fetching })

/-- A lane set taken whole (R48 to R51, R57, R63): read through the queue, each lane the set names holds the set's bits and every
other lane of every word reads as before. An entry of one of its words takes the lanes and keeps its creator, age, marks and
place; it keeps its state too, but that a FETCHING one made complete before its fetch is granted becomes PENDING_WRITE. Each
word without an entry gets a new one at the end of the order, in increasing order of address: of the set's creator,
COLLECTING, age 0, with the flush mark given and no retry used, holding the set's lanes and no others. An overlaid read shows
the valid lanes of the word's entry, and the rest as memory gave it. -/
def Obligations.TakenLanesAreRead : Prop :=
  (∀ (q : MergeQueue) (c : Creator) (mark granted : Bool) (lanes : List LaneWrite),
    (lanes.map fun l => (l.word, l.lane)).Nodup →
    ∀ (a : Nat) (n : Fin 8) (w : Word),
      (∀ l ∈ lanes, l.word = a → l.lane = n → laneOf ((q.takeSet c mark granted lanes).overlay a w) n = l.bits)
      ∧ ((∀ l ∈ lanes, l.word ≠ a ∨ l.lane ≠ n) →
          laneOf ((q.takeSet c mark granted lanes).overlay a w) n = laneOf (q.overlay a w) n))
  ∧ (∀ (q : MergeQueue) (a : Nat) (w : Word),
    ((∀ e ∈ q.entries, e.word ≠ a) → q.overlay a w = w)
    ∧ ∀ older e newer, q.entries = older ++ e :: newer → (∀ f ∈ older, f.word ≠ a) → e.word = a →
      ∀ n : Fin 8, laneOf (q.overlay a w) n = (e.lanes[n]).getD (laneOf w n))
  ∧ ∀ (q : MergeQueue) (c : Creator) (mark granted : Bool) (lanes : List LaneWrite),
    (lanes.map fun l => (l.word, l.lane)).Nodup → (q.entries.map Entry.word).Nodup →
    ∃ joined created : List Entry,
      q.takeSet c mark granted lanes = { q with entries := joined ++ created }
      ∧ joined.length = q.entries.length
      ∧ (∀ (i : Nat) (e : Entry), q.entries[i]? = some e → ∃ f : Entry, joined[i]? = some f
        ∧ f = { e with lanes := f.lanes, state := f.state }
        ∧ (∀ l ∈ lanes, l.word = e.word → f.lanes[l.lane] = some l.bits)
        ∧ (∀ n : Fin 8, (∀ l ∈ lanes, l.word = e.word → l.lane ≠ n) → f.lanes[n] = e.lanes[n])
        ∧ f.state = if e.state = .fetching ∧ granted = false ∧ (∃ l ∈ lanes, l.word = e.word)
            ∧ (∀ n : Fin 8, f.lanes[n] ≠ none) then .pendingWrite else e.state)
      ∧ (created.map Entry.word).Pairwise (· < ·) ∧ q.lacks lanes (created.map Entry.word)
      ∧ ∀ f ∈ created, f = ⟨f.word, f.lanes, c, 0, mark, false, .collecting⟩
        ∧ (∀ l ∈ lanes, l.word = f.word → f.lanes[l.lane] = some l.bits)
        ∧ ∀ n : Fin 8, (∀ l ∈ lanes, l.word = f.word → l.lane ≠ n) → f.lanes[n] = none

/-- LANE_ARRIVAL (R49, R77, R146, R151): while a word of the set is WRITING or the free entries are too few nothing changes;
else the set is taken, its run is inserted (the whole window where the scroll has changed since the decode, nothing where the
window is no longer ACTIVE or is not tracked), and the beat is done with OK. What the occupant of the long-operation slot lets
follow, and the drain choice, belong to the same command (the model's choice, log 6); a DAMAGE_COLLAPSE of the run (R83)
arises at that moment, in an order with the events of what follows that is left open (R186; log 28). A set is taken when no
entry of its words is WRITING and its words without an entry are no more than the free entries (R49); new entries are
flush-marked when the creator is a DRAINING window (R50); and a fetch counts as granted while a DRAIN access is in flight. -/
def Obligations.LaneArrivalTakesSet : Prop :=
  (∀ (q : MergeQueue) (lanes : List LaneWrite) (words : List Nat), (q.entries.map Entry.word).Nodup → q.lacks lanes words →
    (q.canTake lanes = true ↔
      (∀ e ∈ q.entries, e.state = .writing → ∀ l ∈ lanes, l.word ≠ e.word) ∧ words.length ≤ 16 - q.entries.length))
  ∧ (∀ (s : State) (c : Creator),
    (s.marksNew c = true ↔ ∃ n v, c = .window n ∧ s.window n = .draining v)
    ∧ (s.port.serves .drain = true ↔ ∃ a, s.port.access = some a ∧ a.requester = .drain ∧ a.abandoned = false))
  ∧ ∀ (s : State) (c : Creator) (lanes : List LaneWrite) (run : Option (Carried × Rect)),
    s.host.action = some (.write c lanes run) →
    let taken : State := { s with merge := s.merge.takeSet c (s.marksNew c) (s.port.serves .drain) lanes }
    let damage : Option (Fin 8 × Rect) := match run with
      | none => none
      | some (d, r) => match s.window d.window with
        | .active v =>
          if d.values.tracking = false then none
          else some (d.window, if v.scroll = d.values.scroll then r else ⟨0, 0, v.width - 1, v.height - 1⟩)
        | .unused | .draining _ => none
    let damaged : State := match damage with
      | none => taken
      | some (w, q) => State.takeIfIdle { taken with damage := (s.damage.insert w q).1 }
    let collapse : List Event := match damage with
      | none => []
      | some (w, q) => ((s.damage.insert w q).2.map Event.damageCollapse).toList
    let done : State := damaged.finishBeat ⟨false, 0⟩
    (s.merge.canTake lanes = false → exec .laneArrival s = .next s)
    ∧ (s.merge.canTake lanes = true → exec .laneArrival s = .next (done.goesOn collapse))
    ∧ (s.merge.canTake lanes = true → s.mgmt.slot = none →
        exec .laneArrival s = .next (State.chooseDrain (collapse.foldl State.post done)))

/-! ### The damage list -/

/-- DAMAGE_READ, DAMAGE_CLEAR and DAMAGE_ADD (R84, R85, R92): the read returns the count and the eight bytes of every record and
changes nothing else; the clear removes the PENDING records of the window and leaves every other record; the add inserts a
rectangle within an ACTIVE, tracked window, and while the streamer is not IDLE nothing but the damage list and, for a
collapse, the event queue changes. A record's bytes are those of R15, its tail flag set where it is the PENDING record of its
window newest in the touch order (R76); and in IDLE the streamer takes the first PENDING record (R98). -/
def Obligations.DamageCommands : Prop :=
  (∀ (r : Record) (tail : Bool), r.bytes tail =
    [byteOf r.window.val,
      byteOf ((if r.state = .streaming then 1 else 0) + (if r.mark = true then 2 else 0) + if tail = true then 4 else 0),
      byteOf r.rect.x0, byteOf (r.rect.x0 / 256 % 16 + 16 * (r.rect.y0 % 16)), byteOf (r.rect.y0 / 16),
      byteOf r.rect.x1, byteOf (r.rect.x1 / 256 % 16 + 16 * (r.rect.y1 % 16)), byteOf (r.rect.y1 / 16)])
  ∧ (∀ n : Nat, (byteOf n).toNat = n % 256)
  ∧ (∀ l : DamageList, (l.records.map Record.touch).Nodup → ∀ r ∈ l.records,
    (l.isTail r = true ↔ r.state = .pending
      ∧ ∀ p ∈ l.records, p.state = .pending → p.window = r.window → p.touch ≤ r.touch)
    ∧ (l.tail? r.window = some r ↔ l.isTail r = true))
  ∧ (∀ s : State, (s.streamer.state ≠ .idle → s.takeIfIdle = s)
    ∧ (s.streamer.state = .idle → (s.damage.records.find? Record.isPending = none → s.takeIfIdle = s)
      ∧ ∀ r, s.damage.records.find? Record.isPending = some r → s.takeIfIdle = s.withTaken Record.isPending r))
  ∧ (∀ s : State, s.ready → exec .damageRead s = .next (s.reply (0x00 :: byteOf s.damage.records.length ::
      s.damage.records.flatMap fun r => r.bytes (s.damage.isTail r))))
  ∧ (∀ (s : State) (b : Byte), s.ready →
    (8 ≤ b.toNat → exec (.damageClear b) s = .next (s.reply [0x03]))
    ∧ (b.toNat < 8 → s.resetOrLoad = true → exec (.damageClear b) s = .next (s.reply [0x02]))
    ∧ ∀ n : Fin 8, b.toNat = n.val → s.resetOrLoad = false →
      exec (.damageClear b) s = .next (State.reply
        { s with damage := { s.damage with
            records := s.damage.records.filter fun r => r.state != .pending || r.window != n } } [0x00]))
  ∧ ∀ (s : State) (b : Byte) (r : PackedRect) (n : Fin 8) (v : WindowValues), s.ready → s.resetOrLoad = false →
    b.toNat = n.val → s.window n = .active v → v.tracking = true →
    r.x0.toNat ≤ r.x1.toNat → r.x1.toNat < v.width → r.y0.toNat ≤ r.y1.toNat → r.y1.toNat < v.height →
    let q : Rect := ⟨r.x0.toNat, r.y0.toNat, r.x1.toNat, r.y1.toNat⟩
    (s.streamer.state ≠ .idle → exec (.damageAdd b r) s = .next (State.reply
      { s with
        damage := (s.damage.insert n q).1
        events := match (s.damage.insert n q).2 with
          | none => s.events
          | some w => s.events.post (.damageCollapse w) } [0x00]))
    ∧ (s.streamer.state = .idle → exec (.damageAdd b r) s = .next ((s.insertDamage n q).takeIfIdle.reply [0x00]))

/-- An insertion takes the first of containment, growth, append and collapse that applies (R78 to R83). A collapse replaces all
PENDING records of a window by one, at the position of the earliest of them, marked if any of them was: of the window itself
with their bounding box and that of the rectangle (R81), or, where the window has fewer than two, of the window with the
most of them, the rectangle being then appended (R82). The touch order stands in stamps that the model counts (log 16): a
changed or new record takes the next one and is thereby the newest. -/
def Obligations.InsertionSteps : Prop :=
  (∀ r q : Rect,
    (r.contains q = true ↔ (r.x0 ≤ q.x0 ∧ q.x1 ≤ r.x1) ∧ r.y0 ≤ q.y0 ∧ q.y1 ≤ r.y1)
    ∧ (r.adjacent q = true ↔ (q.x0 ≤ r.x1 + 1 ∧ r.x0 ≤ q.x1 + 1) ∧ q.y0 ≤ r.y1 + 1 ∧ r.y0 ≤ q.y1 + 1)
    ∧ r.join q = ⟨min r.x0 q.x0, min r.y0 q.y0, max r.x1 q.x1, max r.y1 q.y1⟩)
  ∧ ∀ (l : DamageList) (w : Fin 8) (q : Rect),
    let mine := l.records.filter fun r => r.state == .pending && r.window == w
    let merged (v : Fin 8) (box : Rect) : Record :=
      ⟨v, box, .pending, (l.pendingOf v).any Record.mark, l.nextTouch⟩
    (mine.any (fun r => r.rect.contains q) = true → l.insert w q = (l, none))
    ∧ (mine.any (fun r => r.rect.contains q) = false → ∀ t, l.tail? w = some t → t.rect.adjacent q = true →
        ∃ i, l.records[i]? = some t ∧ l.insert w q
          = (⟨l.records.set i { t with rect := t.rect.join q, touch := l.nextTouch }, l.nextTouch + 1⟩, none))
    ∧ (mine.any (fun r => r.rect.contains q) = false → (∀ t, l.tail? w = some t → t.rect.adjacent q = false) →
        l.records.length < 24 → l.insert w q
          = (⟨l.records ++ [⟨w, q, .pending, false, l.nextTouch⟩], l.nextTouch + 1⟩, none))
    ∧ (mine.any (fun r => r.rect.contains q) = false → (∀ t, l.tail? w = some t → t.rect.adjacent q = false) →
        24 ≤ l.records.length → 2 ≤ mine.length → (l.insert w q).2 = some w
          ∧ (l.insert w q).1.records.length = l.records.length - mine.length + 1
          ∧ ∀ before r after, l.records = before ++ r :: after → (∀ p ∈ before, p.pendingOf w = false) →
            r.pendingOf w = true → ∃ box : Rect, box.bounds (q :: mine.map Record.rect) ∧ (l.insert w q).1
              = ⟨before ++ merged w box :: after.filter (fun p => !p.pendingOf w), l.nextTouch + 1⟩)
    ∧ (mine.any (fun r => r.rect.contains q) = false → (∀ t, l.tail? w = some t → t.rect.adjacent q = false) →
        24 ≤ l.records.length → mine.length < 2 → ∃ v, (l.insert w q).2 = some v
          ∧ (∀ u : Fin 8, (l.pendingOf u).length ≤ (l.pendingOf v).length
            ∧ ((l.pendingOf u).length = (l.pendingOf v).length → v ≤ u))
          ∧ ∀ before r after, l.records = before ++ r :: after → (∀ p ∈ before, p.pendingOf v = false) →
            r.pendingOf v = true → ∃ box : Rect, box.bounds ((l.pendingOf v).map Record.rect) ∧ (l.insert w q).1
              = ⟨before ++ merged v box :: after.filter (fun p => !p.pendingOf v)
                  ++ [⟨w, q, .pending, false, l.nextTouch + 1⟩], l.nextTouch + 2⟩)

/-- No insertion loses damage, and none touches a STREAMING record (R74, R81 to R83): every pixel that some record of its window
covered, and every pixel of the rectangle inserted, is covered afterwards. -/
def Obligations.InsertionLosesNoDamage : Prop :=
  ∀ (l : DamageList) (w : Fin 8) (q : Rect),
    (∀ (u : Fin 8) (x y : Nat),
      (∃ r ∈ l.records, r.window = u ∧ r.rect.holds x y = true) ∨ (u = w ∧ q.holds x y = true) →
      ∃ r ∈ (l.insert w q).1.records, r.window = u ∧ r.rect.holds x y = true)
    ∧ (l.insert w q).1.records.filter Record.isStreaming = l.records.filter Record.isStreaming

/-! ### The streamer and the panel link -/

/-- STREAM_MODE (R116 to R118): its checks, and for each mode what becomes of the state, the pass and a region in flight. -/
def Obligations.StreamModeChanges : Prop :=
  ∀ (s : State) (m : Byte), s.ready →
    (2 < m.toNat → exec (.streamMode m) s = .next (s.reply [0x03]))
    ∧ (m.toNat ≤ 2 → s.resetOrLoad = true → exec (.streamMode m) s = .next (s.reply [0x02]))
    ∧ (s.resetOrLoad = false →
      (s.streamer.region = none → exec (.streamMode 0) s = .next (State.reply
        { s with streamer := { s.streamer with state := .off, mode := .off, passOpen := false } } [0x00]))
      ∧ (∀ r, s.streamer.region = some r → exec (.streamMode 0) s = .next (State.reply
        { s.abortRegion with
          damage := { s.damage with records := s.damage.records.map fun q => { q with state := .pending } }
          streamer := { s.streamer with
            state := .off, mode := .off, passOpen := false, region := none, answerTimer := none } } [0x00]))
      ∧ (s.streamer.state ≠ .off → s.streamer.state ≠ .waitSync → exec (.streamMode 1) s = .next (State.reply
        { s with streamer := { s.streamer with mode := .free, passOpen := false } } [0x00]))
      ∧ (s.streamer.state = .off ∨ s.streamer.state = .waitSync →
        (s.damage.records.find? Record.isPending = none → exec (.streamMode 1) s = .next (State.reply
          { s with streamer := { s.streamer with state := .idle, mode := .free, passOpen := false } } [0x00]))
        ∧ ∀ r, s.damage.records.find? Record.isPending = some r → exec (.streamMode 1) s = .next (State.reply
          (State.withTaken { s with streamer := { s.streamer with mode := .free, passOpen := false } }
            Record.isPending r) [0x00]))
      ∧ (s.streamer.state = .off ∨ s.streamer.state = .idle → exec (.streamMode 2) s = .next (State.reply
        { s with streamer := { s.streamer with state := .waitSync, mode := .gated } } [0x00]))
      ∧ (s.streamer.state ≠ .off → s.streamer.state ≠ .idle → exec (.streamMode 2) s = .next (State.reply
        { s with streamer := { s.streamer with mode := .gated } } [0x00])))

/-- STREAM_CONFIG and STREAM_RESUME (R115, R119): the checks in order; the three settings are replaced together while OFF; a
resume leaves STALLED for WAIT_SYNC in GATED mode, and in FREE mode for IDLE, where the first PENDING record is taken. -/
def Obligations.StreamConfigAndResume : Prop :=
  ∀ (s : State) (f l r : Byte), s.ready →
    (1 < f.toNat ∨ l.toNat = 0 ∨ 3 < r.toNat → exec (.streamConfig f l r) s = .next (s.reply [0x03]))
    ∧ (f.toNat ≤ 1 → l.toNat ≠ 0 → r.toNat ≤ 3 →
      (s.resetOrLoad = true → exec (.streamConfig f l r) s = .next (s.reply [0x02]))
      ∧ (s.resetOrLoad = false → s.streamer.state ≠ .off → exec (.streamConfig f l r) s = .next (s.reply [0x04]))
      ∧ (s.resetOrLoad = false → s.streamer.state = .off → exec (.streamConfig f l r) s = .next (State.reply
        { s with streamer := { s.streamer with
            panelFormat := if f = 0 then .p16 else .p24, answerLimit := l.toNat, retries := r.toNat } } [0x00])))
    ∧ (s.resetOrLoad = true → exec .streamResume s = .next (s.reply [0x02]))
    ∧ (s.resetOrLoad = false → s.streamer.state ≠ .stalled → exec .streamResume s = .next (s.reply [0x04]))
    ∧ (s.resetOrLoad = false → s.streamer.state = .stalled →
      (s.streamer.mode = .gated → exec .streamResume s = .next (State.reply
        { s with streamer := { s.streamer with state := .waitSync, passOpen := false } } [0x00]))
      ∧ (s.streamer.mode = .free → s.damage.records.find? Record.isPending = none →
        exec .streamResume s = .next (State.reply { s with streamer := { s.streamer with state := .idle } } [0x00]))
      ∧ (∀ q, s.streamer.mode = .free → s.damage.records.find? Record.isPending = some q →
        exec .streamResume s = .next ((State.withTaken s Record.isPending q).reply [0x00])))

/-- PIXEL_SENT, END_SENT and ABORT_MESSAGE_SENT (R102, R104, R105, R110): a pixel's bytes go out, the first after DATA's type
byte, and enter the checksum; after the last pixel END goes out with the checksum, and the answer timer starts in
AWAIT_ANSWER; an ABORT message gone out lets the REGION of a record taken meanwhile begin once no other ABORT is owed. The
bytes of REGION and of a pixel are those of R17, most significant first. The record of what went out and the count of ABORT
messages owed are the model's (logs 9 and 10). -/
def Obligations.LinkMessagesGoOut : Prop :=
  (∀ (f : PanelFormat) (px py : Nat) (q : Rect),
    let two (n : Nat) : List Byte := [byteOf (n / 256), byteOf n]
    regionBytes f (px, py) q = [0xC1, if f = .p16 then 0x00 else 0x01]
      ++ two (px + q.x0) ++ two (py + q.y0) ++ two (q.x1 - q.x0 + 1) ++ two (q.y1 - q.y0 + 1))
  ∧ (∀ v : Nat, panelBytes .p16 v = [byteOf (v / 256), byteOf v]
    ∧ panelBytes .p24 v = [byteOf (v / 65536), byteOf (v / 256), byteOf v])
  ∧ ∀ (s : State) (r : Region),
    (s.streamer.state = .sending → s.streamer.region = some r → r.begun = true →
      (∀ p rest, r.ready = p :: rest →
        let bytes := panelBytes s.streamer.panelFormat p
        exec .pixelSent s = .next { s with
          streamer := { s.streamer with region := some { r with
            ready := rest, sent := r.sent + 1, checksum := r.checksum + BitVec.ofNat 16 (sumBytes bytes) } }
          link := { s.link with log := s.link.log ++ [.pixel (if r.sent = 0 then 0xC2 :: bytes else bytes)] } })
      ∧ (r.sent = (r.rect.x1 - r.rect.x0 + 1) * (r.rect.y1 - r.rect.y0 + 1) →
        exec .endSent s = .next { s with
          streamer := { s.streamer with state := .awaitAnswer, answerTimer := some 0 }
          link := { s.link with log := s.link.log
            ++ [.endGone [0xC3, r.checksum.extractLsb' 8 8, r.checksum.extractLsb' 0 8]] } }))
    ∧ (∀ k, s.link.abortsOwed = k + 1 → s.streamer.region = none ∨ k ≠ 0 →
      exec .abortMessageSent s = .next { s with
        link := { abortsOwed := k, log := s.link.log ++ [.abortGone [0xC4]] } })
    ∧ (s.link.abortsOwed = 1 → s.streamer.region = some r → r.begun = false →
      exec .abortMessageSent s = .next { s with
        streamer := { s.streamer with region := some { r with begun := true } }
        link := ⟨0, s.link.log ++ [.abortGone [0xC4], .regionBegun (regionBytes s.streamer.panelFormat
          (((s.window r.window).values?.bind WindowValues.origin).getD (0, 0)) r.rect)]⟩ })

/-- The panel's answer (R106 to R109): ACCEPT removes the STREAMING record and ends the region by the mode; REFUSE and the expiry
of the answer timer send the region again while retries remain, and else return the record to PENDING, stall the
streamer and post LINK_FAIL; outside AWAIT_ANSWER all three are ignored. -/
def Obligations.PanelAnswers : Prop :=
  ∀ s : State,
    (s.streamer.state ≠ .awaitAnswer → ∀ c ∈ [Instr.panelAccept, .panelRefuse, .answerTimeout], exec c s = .next s)
    ∧ (s.streamer.state = .awaitAnswer →
      let left := s.damage.records.filter fun q => q.state != .streaming
      let accepted : State := { s with
        damage := { s.damage with records := left }
        streamer := { s.streamer with region := none, answerTimer := none } }
      (s.streamer.mode = .free → left.find? Record.isPending = none → exec .panelAccept s
        = .next { accepted with streamer := { accepted.streamer with state := .idle } })
      ∧ (∀ q, s.streamer.mode = .free → left.find? Record.isPending = some q →
        exec .panelAccept s = .next (State.withTaken accepted Record.isPending q))
      ∧ (∀ q, s.streamer.mode = .gated → s.streamer.passOpen = true → left.find? Record.isMarked = some q →
        exec .panelAccept s = .next (State.withTaken accepted Record.isMarked q))
      ∧ (s.streamer.mode = .gated → s.streamer.passOpen = true → left.find? Record.isMarked = none →
        exec .panelAccept s
          = .next { accepted with streamer := { accepted.streamer with state := .waitSync, passOpen := false } })
      ∧ (s.streamer.mode = .gated → s.streamer.passOpen = false → exec .panelAccept s
        = .next { accepted with streamer := { accepted.streamer with state := .waitSync } })
      ∧ ∀ r, s.streamer.region = some r → s.link.abortsOwed = 0 →
        (s.streamer.retriesUsed < s.streamer.retries → ∀ c ∈ [Instr.panelRefuse, .answerTimeout],
          exec c s = .next { s with
            streamer := { s.streamer with
              state := .sending, retriesUsed := s.streamer.retriesUsed + 1, answerTimer := none
              region := some ⟨r.window, r.rect, true, 0, [], [], 0, 0⟩ }
            link := { s.link with log := s.link.log ++ [.regionBegun (regionBytes s.streamer.panelFormat
              (((s.window r.window).values?.bind WindowValues.origin).getD (0, 0)) r.rect)] } })
        ∧ (s.streamer.retries ≤ s.streamer.retriesUsed →
          let stalled : State := { s with
            damage := { s.damage with records := s.damage.records.map fun q => { q with state := .pending } }
            streamer := { s.streamer with state := .stalled, passOpen := false, region := none, answerTimer := none } }
          exec .panelRefuse s = .next (stalled.post (.linkFail r.window r.rect .refused))
          ∧ exec .answerTimeout s = .next (stalled.post (.linkFail r.window r.rect .noAnswer))))

/-- SYNC (R91, R99): in WAIT_SYNC every PENDING record is marked and, with one, a pass opens on the first of them; with none the
pass ends at once; in any other state SYNC is ignored. -/
def Obligations.SyncOpensPass : Prop :=
  ∀ s : State,
    (s.streamer.state ≠ .waitSync → exec .sync s = .next s)
    ∧ (s.streamer.state = .waitSync →
      (s.damage.records.find? Record.isPending = none → exec .sync s = .next { s with
        streamer := { s.streamer with passOpen := false } })
      ∧ ∀ r, s.damage.records.find? Record.isPending = some r →
        let marked := s.damage.records.map fun q => if q.state = .pending then { q with mark := true } else q
        exec .sync s = .next (State.withTaken
          { s with
            damage := { s.damage with records := marked }
            streamer := { s.streamer with passOpen := true } } Record.isMarked { r with mark := true }))

/-! ### Events -/

/-- An event that arises (R183 to R185, R189) is appended with the counter's value below 16 records, and at 16 is discarded
with the newest record marked; the counter rises in both cases, nothing else changes, and IRQ follows. Bit k − 1 of the mask
enables the kind with code k (R188), and IRQ is asserted while a held record's kind is enabled. The events of one moment
(R186) are posted one after another, each as above, in some order that no statement fixes: a free value decides it (log 28),
and nothing but the event queue and the count of free values changes; one event alone uses none. -/
def Obligations.EventPosting : Prop :=
  (∀ (q : EventQueue) (e : Event), q.enables e = q.mask.getLsbD (match e with
    | .hostRefused .. => 0
    | .hostReadTimeout .. | .drainTimeout .. | .streamTimeout .. => 1
    | .linkFail .. => 2
    | .damageCollapse .. => 3
    | .opDone .. => 4
    | .profileLoaded .. => 5
    | .profileFault .. => 6))
  ∧ (∀ s : State, s.irq = true ↔ ∃ r ∈ s.events.records, s.events.enables r.event = true)
  ∧ ∀ (s : State) (e : Event),
    (s.events.records.length < 16 →
      s.post e = { s with events := { s.events with
        records := s.events.records ++ [⟨s.events.counter, e, false⟩], counter := s.events.counter + 1 } }
      ∧ (s.post e).irq = (s.irq || s.events.enables e))
    ∧ (16 ≤ s.events.records.length → ∃ older newest, s.events.records = older ++ [newest]
      ∧ s.post e = { s with events := { s.events with
          records := older ++ [{ newest with lost := true }], counter := s.events.counter + 1 } }
      ∧ (s.post e).irq = s.irq)
    ∧ s.postTogether [e] = s.post e
    ∧ ∀ es : List Event, ∃ order : List Event, order.Perm es
      ∧ s.postTogether es = { order.foldl State.post s with freeCount := s.freeCount + (es.length - 1) }

/-- EVENTS_READ and IRQ_MASK (R16, R168, R187, R188): up to four records leave from the front and are returned; the mask is read
or set, a byte with bit 7 set being BAD_ARG; the counter stays. A record's sixteen bytes are those of R16 with the codes of
R12, the fields that its kind fills and 00h for the others. -/
def Obligations.EventCommands : Prop :=
  (∀ (n : Byte) (lost : Bool),
    let pair (u v : Nat) : List Byte := [byteOf u, byteOf (u / 256 % 16 + 16 * (v % 16)), byteOf (v / 16)]
    let row (e : Event) (kind : Byte) (w : Option (Fin 8)) (a : Option Nat) (q : Option Rect) (x y : Byte) : Prop :=
      EventRecord.bytes ⟨n, e, lost⟩ =
        [n, kind, byteOf ((if w = none then 0 else 1) + (if a = none then 0 else 2) + if lost = true then 4 else 0),
          byteOf ((w.map Fin.val).getD 0), byteOf (a.getD 0), byteOf (a.getD 0 / 256), byteOf (a.getD 0 / 65536),
          byteOf (a.getD 0 / 16777216)]
        ++ (match q with
          | none => [0, 0, 0, 0, 0, 0]
          | some q => pair q.x0 q.y0 ++ pair q.x1 q.y1)
        ++ [x, y]
    let reason : RefuseReason → Byte := fun r => match r with
      | .partialPixel => 1 | .readOnly => 2 | .writeOnly => 3 | .draining => 4 | .outOfMemory => 5 | .wrap => 6
      | .resetting => 7
    let creator : Creator → Byte := fun c => match c with
      | .window m => byteOf m.val
      | .bypass => 8
    let result : Result → Byte := fun r => match r with
      | .done => 0 | .accepted => 1 | .busy => 2 | .badArg => 3 | .badState => 4 | .overlap => 5 | .range => 6
      | .fault => 7 | .aborted => 8
    (∀ why w a, row (.hostRefused why w a) 1 w (some a) none (reason why) 0)
    ∧ (∀ w a, row (.hostReadTimeout w a) 2 w (some a) none 0 0)
    ∧ (∀ write c a, row (.drainTimeout write c a) 2 none (some a) none (if write = true then 2 else 1) (creator c))
    ∧ (∀ w a, row (.streamTimeout w a) 2 (some w) (some a) none 3 0)
    ∧ (∀ w q cause, row (.linkFail w q cause) 3 (some w) none (some q) (if cause = .refused then 0 else 1) 0)
    ∧ (∀ w, row (.damageCollapse w) 4 (some w) none none 0 0)
    ∧ (∀ c r, row (.opDone c r) 5 none none none c (result r))
    ∧ (∀ k : Option (Fin 4), row (.profileLoaded k) 6 none none none ((k.map fun m => byteOf m.val).getD 0xFF) 0)
    ∧ ∀ (k : Fin 4) w r, row (.profileFault k w r) 7 w none none (byteOf k.val) (result r))
  ∧ ∀ (s : State) (m : Byte), s.ready →
    exec .eventsRead s = .next (State.reply { s with events := { s.events with records := s.events.records.drop 4 } }
      (0x00 :: byteOf (s.events.records.length - 4) :: byteOf (min 4 s.events.records.length) ::
        (s.events.records.take 4).flatMap EventRecord.bytes))
    ∧ exec (.irqMask none) s = .next (s.reply [0x00, s.events.mask.zeroExtend 8])
    ∧ (128 ≤ m.toNat → exec (.irqMask (some m)) s = .next (s.reply [0x03]))
    ∧ (m.toNat < 128 → ∃ t : State, exec (.irqMask (some m)) s = .next (t.reply [0x00])
        ∧ t = { s with events := { s.events with mask := t.events.mask } } ∧ t.events.mask.toNat = m.toNat)

/-! ### The profile store -/

/-- PROFILE_ARM, PROFILE_WRITE and PROFILE_RETIRE (R165, R177, R178, R198, R203): the checks in order; a write captures the image,
sets the started mark and takes the slot; a retire sets the retired mark. -/
def Obligations.ProfileArmWriteRetire : Prop :=
  (∀ s : State, s.storeBusy = true ↔ (∃ n, s.mgmt.slot = some (.profileWrite n)) ∨ (∃ n, s.mgmt.slot = some (.profileLoad n))
    ∨ ∃ p, s.mgmt.slot = some (.softReset p))
  ∧ ∀ (s : State) (b : Byte), s.ready →
    (4 ≤ b.toNat → exec (.profileArm b) s = .next (s.reply [0x03]))
    ∧ (∀ k : Fin 4, b.toNat = k.val →
      exec (.profileArm b) s = .next { s with mgmt := { s.mgmt with response := [0x00], arm := some k } })
    ∧ (s.mgmt.arm = none →
      exec .profileWrite s = .next (s.reply [0x04]) ∧ exec .profileRetire s = .next (s.reply [0x04]))
    ∧ ∀ k : Fin 4, s.mgmt.arm = some k →
      (s.mgmt.slot.isSome → exec .profileWrite s = .next (s.reply [0x02]))
      ∧ (s.mgmt.slot = none → s.heldState k ≠ .blank → exec .profileWrite s = .next (s.reply [0x04]))
      ∧ (s.mgmt.slot = none → s.heldState k = .blank → exec .profileWrite s = .next (State.reply
        { s with
          mgmt := { s.mgmt with slot := some (.profileWrite k) }
          store := { s.store with
            otp := otpProgram s.store.otp (slotAddress k 508) 0x00
            held := s.store.held.set k .programming
            programming := some ⟨k, captureImage s.settings s.table⟩ } } [0x01]))
      ∧ ((∃ n, s.mgmt.slot = some (.profileWrite n)) ∨ (∃ n, s.mgmt.slot = some (.profileLoad n))
          ∨ (∃ p, s.mgmt.slot = some (.softReset p)) → exec .profileRetire s = .next (s.reply [0x02]))
      ∧ (s.storeBusy = false → s.heldState k ≠ .written → exec .profileRetire s = .next (s.reply [0x04]))
      ∧ (s.storeBusy = false → s.heldState k = .written → exec .profileRetire s = .next (State.reply
        { s with store := { s.store with
            otp := otpProgram s.store.otp (slotAddress k 510) 0x00
            held := s.store.held.set k .retired } } [0x00]))

/-- A captured image is good when it is built (R18, R198): it has 508 bytes, its settings read back as the settings in force,
and its descriptor of an ACTIVE window passes the range check with that window's values. -/
def Obligations.CapturedImageIsGood : Prop :=
  ∀ (s : State), TableSound s →
    1 ≤ s.port.waitLimit → s.port.waitLimit ≤ 64 → 1 ≤ s.merge.highWater → s.merge.highWater ≤ 16 → s.merge.linger ≤ 255 →
    1 ≤ s.streamer.answerLimit → s.streamer.answerLimit ≤ 255 → s.streamer.retries ≤ 3 →
    let image := captureImage s.settings s.table
    image.length = 508 ∧ imageGood image = true ∧ parseSettings image = some s.settings
    ∧ ∀ n : Fin 8, match s.window n with
      | .active v => ∃ d, imageDescriptor image n = some d ∧ (parseDescriptor d).rangeCheck = some v
      | .unused | .draining _ => imageDescriptor image n = none

/-- PROGRAMMING_END (R199, R200): every byte becomes what it held AND the image, less the bits that did not take; a read-back
that matches and a finished mark that reads set make the slot WRITTEN with DONE; every other end sets the damaged mark and
makes it DAMAGED with FAULT; in both the slot is emptied and nothing outside the store changes but the event posted. That the
bytes are programmed at this command, less the operand's bits, is the model's choice (log 15). -/
def Obligations.ProgrammingEndOutcomes : Prop :=
  ∀ (s : State) (w : Programming) (failed : List (Nat × Byte)), otpWf s.store.otp = true →
    s.store.programming = some w → w.image.length = 508 →
    ∃ (t : State) (ok : Bool), exec (.programmingEnd failed) s = .next t
      ∧ t = State.post { s with store := t.store, mgmt := { s.mgmt with slot := none } }
          (.opDone 0x61 (if ok = true then .done else .fault))
      ∧ t.store.programming = none ∧ t.store.load = s.store.load
      ∧ (∀ i < 508, otpRead t.store.otp (slotAddress w.slot i)
          = otpRead s.store.otp (slotAddress w.slot i) &&& (w.image.getD i 0 ||| failedAt failed i))
      ∧ (∀ a, (∀ i < 512, a ≠ slotAddress w.slot i) → otpRead t.store.otp a = otpRead s.store.otp a)
      ∧ (ok = true ↔ (∀ i < 508, otpRead t.store.otp (slotAddress w.slot i) = w.image.getD i 0)
          ∧ otpRead s.store.otp (slotAddress w.slot 509) &&& failedAt failed 509 ≠ 0xFF)
      ∧ t.store.held = s.store.held.set w.slot (if ok = true then .written else .damaged)
      ∧ (ok = true → otpRead t.store.otp (slotAddress w.slot 509) ≠ 0xFF)
      ∧ (ok = false → otpRead t.store.otp (slotAddress w.slot 511) = 0x00)

/-- PROFILE_LOAD (R179, R211): the checks in order, then the slot is taken, the host port is HELD and the slot is examined. A
decoded write beat not yet in the merge queue counts as in it (the model's choice, log 7), so it is ruled out here. -/
def Obligations.ProfileLoadTaken : Prop :=
  ∀ (s : State) (b : Byte), s.ready →
    (4 ≤ b.toNat → exec (.profileLoad b) s = .next (s.reply [0x03]))
    ∧ (b.toNat < 4 → s.mgmt.slot.isSome → exec (.profileLoad b) s = .next (s.reply [0x02]))
    ∧ ∀ k : Fin 4, b.toNat = k.val → s.mgmt.slot = none →
      ((∃ n, s.window n ≠ .unused) ∨ s.merge.entries ≠ [] → exec (.profileLoad b) s = .next (s.reply [0x04]))
      ∧ ((∀ n, s.window n = .unused) → s.merge.entries = [] → s.heldState k ≠ .written →
        exec (.profileLoad b) s = .next (s.reply [0x04]))
      ∧ ((∀ n, s.window n = .unused) → s.merge.entries = [] → s.host.writeBeat = false → s.heldState k = .written →
        exec (.profileLoad b) s = .next (State.reply
          { s with
            mgmt := { s.mgmt with slot := some (.profileLoad k) }
            host := { s.host with state := .held }
            store := { s.store with load := some ⟨.profileLoad k, .examining k⟩ } } [0x01]))

/-! ### The host port -/

/-- HOST_REQUEST_ACCEPT and HOST_ANSWER_TRANSFER (R142 to R145, R147): a request is taken below 8 records unless the port is
HELD, an answer is going out or another WRITE is under way; one that passes FFFFFFFCh is refused whole with WRAP, and any
other while REFUSING with RESETTING, with one HOST_REFUSED; the oldest answer, once due, goes out and its record leaves, and
none starts while a WRITE under way asserts HVALID and the port takes it. On the bus (R142, R143, R147, R156): a READ is
accepted with its address and a WRITE with its last beat, each taken while HACCEPT is asserted and waiting else; an answer
that is due begins to go out while HVALID is released or the port takes nothing, one beat after another with HANS, HERR and
HAD, and its record leaves after the last: a record's answer is not yet due, due or going out (R143). With no answer going out
the three lines are at rest. A request presented while none is taken changes nothing, and the record of the answers sent is
the model's (logs 5 and 8). -/
def Obligations.HostRequestsAndAnswers : Prop :=
  (∀ (s : State) (r : HostRequest) (record : HostRecord), r.wellFormed = true →
    (match r with
      | .read address hlen => record = ⟨.read, 4 * (address.toNat / 4), hlen.toNat + 1, [], none, []⟩
      | .write address hlen beats => record = ⟨.write, 4 * (address.toNat / 4), hlen.toNat + 1, beats, none, []⟩) →
    let joined (q : HostRecord) : State := { s with host := { s.host with requests := s.host.requests ++ [q] } }
    let refused (why : RefuseReason) : State :=
      (joined { record with refusal := some why, outcomes := List.replicate record.length ⟨true, 0⟩ }).post
        (.hostRefused why none record.address)
    (s.host.state = .held ∨ 8 ≤ s.host.requests.length ∨ s.host.sending ≠ none ∨ s.host.incoming ≠ none →
      exec (.hostRequestAccept r) s = .next s)
    ∧ (s.host.state ≠ .held → s.host.requests.length < 8 → s.host.sending = none → s.host.incoming = none →
      (0xFFFFFFFC < record.address + 4 * (record.length - 1) → exec (.hostRequestAccept r) s = .next (refused .wrap))
      ∧ (record.address + 4 * (record.length - 1) ≤ 0xFFFFFFFC → s.host.state = .refusing →
        exec (.hostRequestAccept r) s = .next (refused .resetting))
      ∧ (record.address + 4 * (record.length - 1) ≤ 0xFFFFFFFC → s.host.state = .accepting →
        exec (.hostRequestAccept r) s = .next (joined record)))
    ∧ (∀ q rest, s.host.requests = q :: rest →
      (q.outcomes.length < q.length ∨ (s.host.incoming ≠ none ∧ s.haccept = true) → exec .hostAnswerTransfer s = .next s)
      ∧ (q.length ≤ q.outcomes.length → s.host.incoming = none ∨ s.haccept = false →
        exec .hostAnswerTransfer s = .next { s with
        host := { s.host with
          requests := rest
          answers := s.host.answers ++ [match q.kind with
            | .read => q.outcomes.map fun o => ⟨if o.error = true then 0 else o.data, o.error⟩
            | .write => [⟨0, q.outcomes.any BeatOutcome.error⟩]]
          sending := none } })))
  ∧ (∀ s : State,
    (s.haccept = true ↔ s.host.state ≠ .held ∧ s.host.requests.length < 8 ∧ s.host.sending = none)
    ∧ (∀ i r, s.host.requests[i]? = some r → r.outcomes.length < r.length → i ≠ 0 ∨ s.host.sending = none →
      s.host.answerState? i = some .notYetDue)
    ∧ (∀ i r, s.host.requests[i]? = some r → r.length ≤ r.outcomes.length → i ≠ 0 → s.host.answerState? i = some .due)
    ∧ (s.host.sending = none → s.hans = false ∧ s.herr = false ∧ s.had = none)
    ∧ (s.haccept = false → ∀ write address hlen beat,
      hostBusStep (.request write address hlen) s = .next s ∧ hostBusStep (.beat beat) s = .next s)
    ∧ (s.host.incoming ≠ none → (∀ write address hlen, hostBusStep (.request write address hlen) s = .next s)
      ∧ (s.haccept = true → ∀ hvalid, hostBusStep (.answerBegins hvalid) s = .next s))
    ∧ (s.haccept = true → s.host.incoming = none → ∀ address hlen,
      hostBusStep (.request false address hlen) s = exec (.hostRequestAccept (.read address hlen)) s
      ∧ ∀ beats last, beats.length = hlen.toNat →
        hostBusStep (.beat last) (beats.foldl (fun t b => t.hostBus (.beat b)) (s.hostBus (.request true address hlen)))
          = exec (.hostRequestAccept (.write address hlen (beats ++ [last]))) s))
  ∧ ∀ (s : State) (q : HostRecord) (rest : List HostRecord), s.host.requests = q :: rest → q.length ≤ q.outcomes.length →
    let out : List AnswerBeat := match q.kind with
      | .read => q.outcomes.map fun o => ⟨if o.error = true then 0 else o.data, o.error⟩
      | .write => [⟨0, q.outcomes.any BeatOutcome.error⟩]
    let going (k : Nat) : State := { s with host := { s.host with sending := some k } }
    (s.host.sending = none →
      s.host.answerState? 0 = some .due
      ∧ (s.host.incoming = none → hostBusStep (.answerBegins false) s = .next (going 0))
      ∧ (s.haccept = false → ∀ hvalid, hostBusStep (.answerBegins hvalid) s = .next (going 0))
      ∧ (s.haccept = true → hostBusStep (.answerBegins true) s = .next s))
    ∧ ∀ k a, out[k]? = some a →
      (going k).host.answerState? 0 = some .goingOut
      ∧ (going k).hans = true ∧ (going k).herr = a.error ∧ (going k).had = some a.data ∧ (going k).haccept = false
      ∧ (k + 1 < out.length → hostBusStep .answerBeat (going k) = .next (going (k + 1)))
      ∧ (k + 1 = out.length → hostBusStep .answerBeat (going k) = exec .hostAnswerTransfer (going k)
        ∧ hostBusStep .answerBeat (going k) = .next { s with
          host := { s.host with requests := rest, answers := s.host.answers ++ [out], sending := none } })

/-- BEAT_DECODE (R37 to R40, R148 to R150, R152, R154, R155): what each beat of the head request becomes, by the window that
claims its address, the memory size, the access mode, the slack and the byte enables, and what the occupant of the
long-operation slot lets follow at once (the model's choice, log 6): where the slot is empty and no drain choice is open,
nothing but the choice that a write beat lacking free entries makes urgent, since it counts as waiting from its decode on (the
model's choice, log 7). HOST_REFUSED and the events of what follows arise at one moment, in an order that is left open (R186;
log 28). A beat done adds its outcome to the oldest record with a beat not yet done, which is the head request, and leaves no
beat in action (R146). -/
def Obligations.BeatDecodeOutcomes : Prop :=
  (∀ (s : State) (older : List HostRecord) (r : HostRecord) (newer : List HostRecord),
    s.host.requests = older ++ r :: newer → (∀ q ∈ older, q.length ≤ q.outcomes.length) → r.outcomes.length < r.length →
    s.host.head? = some r
    ∧ ∀ o, s.finishBeat o = { s with host := { s.host with
        requests := older ++ { r with outcomes := r.outcomes ++ [o] } :: newer, action := none } })
  ∧ ∀ (s : State) (r : HostRecord), TableSound s → s.host.state ≠ .held → s.host.action = none →
    s.host.head? = some r →
    let a := r.address + 4 * r.outcomes.length
    let b := r.beats.getD r.outcomes.length ⟨0, 0⟩
    let acting (x : BeatAction) : State := { s with host := { s.host with action := some x } }
    let done (o : BeatOutcome) : State := (s.finishBeat o).goesOn []
    let refuse (why : RefuseReason) (n : Option (Fin 8)) : State := (s.finishBeat ⟨true, 0⟩).goesOn [.hostRefused why n a]
    let act (x : BeatAction) : State := (acting x).goesOn []
    (DrainChosen s → s.mgmt.slot = none →
      (∀ o, done o = s.finishBeat o)
      ∧ (∀ why n, refuse why n = (s.finishBeat ⟨true, 0⟩).post (.hostRefused why n a))
      ∧ (∀ c words, act (.read c words []) = acting (.read c words []))
      ∧ ∀ c lanes run, act (.write c lanes run) = (acting (.write c lanes run)).chooseDrain)
    ∧ (∀ n v, s.window n = .draining v → v.claims a = true → exec .beatDecode s = .next (refuse .draining (some n)))
    ∧ ((∀ n, ∀ v ∈ (s.window n).values?, v.claims a = false) →
      (s.port.memSize.bytes ≤ a → exec .beatDecode s = .next (refuse .outOfMemory none))
      ∧ (a < s.port.memSize.bytes →
        (r.kind = .read → exec .beatDecode s = .next (act (.read none [a] [])))
        ∧ (r.kind = .write → b.enables = 0 → exec .beatDecode s = .next (done ⟨false, 0⟩))
        ∧ (r.kind = .write → b.enables ≠ 0 → exec .beatDecode s
            = .next (act (.write .bypass (bypassLanes a b) none)))))
    ∧ ∀ n v, s.window n = .active v → v.claims a = true →
      let o := a - v.hostBase
      let c : Carried := ⟨n, v, o / v.hostFormat.bytes % v.width, o / v.hostFormat.bytes / v.width⟩
      (r.kind = .write → v.access = .readOnly → exec .beatDecode s = .next (refuse .readOnly (some n)))
      ∧ (r.kind = .read → v.access = .writeOnly → exec .beatDecode s = .next (refuse .writeOnly (some n)))
      ∧ ((r.kind = .write → v.access ≠ .readOnly) → (r.kind = .read → v.access ≠ .writeOnly) →
        (v.width * v.height * v.hostFormat.bytes ≤ o → exec .beatDecode s = .next (done ⟨false, 0⟩))
        ∧ (o < v.width * v.height * v.hostFormat.bytes →
          (r.kind = .read → exec .beatDecode s = .next (act (.read (some c) c.words [])))
          ∧ (r.kind = .write → partlyEnabled v.hostFormat b.enables = true →
              exec .beatDecode s = .next (refuse .partialPixel (some n)))
          ∧ (r.kind = .write → partlyEnabled v.hostFormat b.enables = false → c.lanes b = [] →
              exec .beatDecode s = .next (done ⟨false, 0⟩))
          ∧ (r.kind = .write → partlyEnabled v.hostFormat b.enables = false → c.lanes b ≠ [] →
              exec .beatDecode s
                = .next (act (.write (.window n) (c.lanes b) (some (c, c.run b)))))))

/-! ### The memory port -/

/-- ARBITER_GRANT (R127, R130 to R132, R139): no grant while the port is busy or a load waits for it; else the first line of
the grant order that applies, the stream wait count, and the entry that becomes WRITING; a HOST_READ at or above the memory
size ends at once as timed out, and what its beat's end lets follow belongs to the same command (the model's choice, log 6),
the events of both in an order that is left open (R186; log 28). That a grant which cannot arise changes nothing is the
model's choice (log 5). What each requester presents (R103, R131): the next word of the read beat in action; the drain entry's
fetch, or its write with the entry's lanes (R56, R57, R59); and while SENDING the next word of the pixel being read, at most
two pixels ahead of those sent. A DRAIN access or STREAM read at or above the memory size ends at once as timed out as well
(the model's reading, log 27). -/
def Obligations.ArbiterGrantOrder : Prop :=
  (∀ (s : State) (a : Nat),
    let free (r : Requester) : Prop := ∀ x, s.port.access = some x → x.requester = r → x.abandoned = true
    (s.hostRequest? = some a ↔ free .hostRead
      ∧ ∃ c words got, s.host.action = some (.read c words got) ∧ words[got.length]? = some a)
    ∧ (∀ w, s.drainRequest? = some (a, w) ↔ free .drain
      ∧ ∃ e, s.merge.entries.find? (fun f => f.state != .collecting) = some e ∧ a = e.word
        ∧ ((e.state = .fetching ∧ w = none)
          ∨ (e.state ≠ .fetching ∧ ∃ data, w = some data ∧ ∀ n : Fin 8, laneOf data n = (e.lanes[n]).getD 0)))
    ∧ (s.streamRequest? = some a ↔ free .stream ∧ s.streamer.state = .sending
      ∧ ∃ r v, s.streamer.region = some r ∧ (s.window r.window).values? = some v
        ∧ r.nextRead < (r.rect.x1 - r.rect.x0 + 1) * (r.rect.y1 - r.rect.y0 + 1) ∧ r.nextRead < r.sent + 2
        ∧ (v.pixelWords (r.rect.x0 + r.nextRead % (r.rect.x1 - r.rect.x0 + 1))
            (r.rect.y0 + r.nextRead / (r.rect.x1 - r.rect.x0 + 1)))[r.words.length]? = some a))
  ∧ ∀ s : State,
    (s.loadApplying = true ↔ ∃ kind image, s.store.load = some ⟨kind, .applying image⟩)
    ∧ (s.port.access.isSome ∨ s.loadApplying = true → exec .arbiterGrant s = .next s)
    ∧ (s.port.access = none → s.loadApplying = false →
      let streamAfter := if s.streamRequest?.isSome then s.port.streamWait + 1 else s.port.streamWait
      let access (r : Requester) (w : Option Word) (a : Nat) : Option Access :=
        some ⟨r, w, a, false, 0, s.port.waitLimit⟩
      let beatWindow : Option (Fin 8) := match s.host.action with
        | some (.read c _ _) => c.map Carried.window
        | some (.write ..) | none => none
      let streamFirst : Prop :=
        8 ≤ s.port.streamWait ∨ (s.hostRequest? = none ∧ (s.urgent = true → s.drainRequest? = none))
      let drainFirst : Prop := (s.urgent = true ∧ (s.streamRequest? = none ∨ s.port.streamWait < 8))
        ∨ (s.urgent = false ∧ s.hostRequest? = none ∧ s.streamRequest? = none)
      let toStream (a : Nat) : State :=
        { s with port := { s.port with access := access .stream none a, streamWait := 0 } }
      let toHost (a : Nat) : State :=
        { s with port := { s.port with access := access .hostRead none a, streamWait := streamAfter } }
      let toDrain (a : Nat) (w : Option Word) : State :=
        { s with
          merge := if w.isSome then s.merge.onDrain fun e => { e with state := .writing } else s.merge
          port := { s.port with access := access .drain w a, streamWait := streamAfter } }
      (∀ a, s.streamRequest? = some a → a < s.port.memSize.bytes → streamFirst →
        exec .arbiterGrant s = .next (toStream a))
      ∧ (∀ a r, s.streamRequest? = some a → s.port.memSize.bytes ≤ a → streamFirst → s.streamer.region = some r →
        exec .arbiterGrant s = .next (State.post
          { s with
            damage := { s.damage with records := s.damage.records.map fun q => { q with state := .pending } }
            streamer := { s.streamer with state := .stalled, passOpen := false, region := none, answerTimer := none }
            link := { s.link with abortsOwed := s.link.abortsOwed + 1 }
            port := { s.port with streamWait := 0 } } (.streamTimeout r.window a)))
      ∧ (∀ a w, s.drainRequest? = some (a, w) → a < s.port.memSize.bytes → drainFirst →
        exec .arbiterGrant s = .next (toDrain a w))
      ∧ (∀ a w e, s.drainRequest? = some (a, w) → s.port.memSize.bytes ≤ a → drainFirst →
        s.merge.entries.find? (fun f => f.state != .collecting) = some e →
        let waited : State := { s with port := { s.port with streamWait := streamAfter } }
        (e.retryUsed = false → ∀ older newer, s.merge.entries = older ++ e :: newer →
          (∀ f ∈ older, f.state = .collecting) → exec .arbiterGrant s = .next { waited with
            merge := { s.merge with entries := older ++ { e with
              retryUsed := true
              state := if w ≠ none then .writing else if e.complete = true then .pendingWrite else .fetching } :: newer } })
        ∧ (e.retryUsed = true → exec .arbiterGrant s = .next
            ((waited.withoutDrain e.word).removalGoesOn [.drainTimeout (w != none) e.creator e.word])))
      ∧ (∀ a, s.hostRequest? = some a → (s.streamRequest? = none ∨ s.port.streamWait < 8) →
        (s.urgent = true → s.drainRequest? = none) →
        (a < s.port.memSize.bytes → exec .arbiterGrant s = .next (toHost a))
        ∧ (s.port.memSize.bytes ≤ a → exec .arbiterGrant s = .next (State.goesOn
            (State.finishBeat { s with port := { s.port with streamWait := streamAfter } } ⟨true, 0⟩)
            [.hostReadTimeout beatWindow a]))
        ∧ (s.port.memSize.bytes ≤ a → s.mgmt.slot = none → DrainChosen s → exec .arbiterGrant s = .next (State.finishBeat
            ({ s with port := { s.port with streamWait := streamAfter } }.post (.hostReadTimeout beatWindow a))
            ⟨true, 0⟩)))
      ∧ (s.hostRequest? = none → s.streamRequest? = none → s.drainRequest? = none → exec .arbiterGrant s = .next s))

/-- MEMORY_ANSWER (R58, R60, R63, R103, R128, R138, R152, R155): ignored on a free port; an abandoned access only frees the
port; a host read's word is overlaid and the beat done with its last word; a fetch fills the lanes that are not valid; a write
retires the drain entry; a STREAM word is overlaid and joins the pixel being read, which is converted once complete. What a
beat done or an entry removed lets follow, by the occupant of the long-operation slot, belongs to the same command (the
model's choice, log 6), its events and those of a waiting beat in an order that is left open (R186; log 28). -/
def Obligations.MemoryAnswerOutcomes : Prop :=
  ∀ (s : State) (md : Word),
    (s.port.access = none → exec (.memoryAnswer md) s = .next s)
    ∧ ∀ a : Access, s.port.access = some a →
      let free : State := { s with port := { s.port with access := none } }
      let word := s.merge.overlay a.address md
      (a.abandoned = true → exec (.memoryAnswer md) s = .next free)
      ∧ (a.abandoned = false →
        (∀ got, a.requester = .hostRead → s.host.action = some (.read none [a.address] got) → got = [] →
          exec (.memoryAnswer md) s = .next ((free.finishBeat ⟨false, word⟩).goesOn [])
          ∧ (s.mgmt.slot = none → DrainChosen s → exec (.memoryAnswer md) s = .next (free.finishBeat ⟨false, word⟩)))
        ∧ (∀ c words got, a.requester = .hostRead → s.host.action = some (.read (some c) words got) →
          (got.length + 1 < words.length → exec (.memoryAnswer md) s
            = .next { free with host := { s.host with action := some (.read (some c) words (got ++ [word])) } })
          ∧ (words.length = got.length + 1 → exec (.memoryAnswer md) s
            = .next ((free.finishBeat ⟨false, c.data (words.zip (got ++ [word]))⟩).goesOn []))
          ∧ (words.length = got.length + 1 → s.mgmt.slot = none → DrainChosen s → exec (.memoryAnswer md) s
            = .next (free.finishBeat ⟨false, c.data (words.zip (got ++ [word]))⟩)))
        ∧ (∀ e, a.requester = .drain → a.write = none → s.merge.drain? = some e →
          ∃ f : Entry, exec (.memoryAnswer md) s = .next { free with
              merge := { s.merge with entries := modifyFirst Entry.draining (fun _ => f) s.merge.entries } }
            ∧ f = { e with lanes := f.lanes, state := .pendingWrite }
            ∧ ∀ n : Fin 8, f.lanes[n] = some ((e.lanes[n]).getD (laneOf md n)))
        ∧ (∀ e w, a.requester = .drain → a.write = some w → s.merge.drain? = some e → s.mgmt.slot = none →
          s.host.action = none → exec (.memoryAnswer md) s = .next (State.chooseDrain
            { free with merge := { s.merge with entries := s.merge.entries.eraseP Entry.draining } }))
        ∧ (∀ e w, a.requester = .drain → a.write = some w → s.merge.drain? = some e →
          exec (.memoryAnswer md) s = .next ((free.withoutDrain e.word).removalGoesOn []))
        ∧ (∀ r v, a.requester = .stream → s.streamer.region = some r → (s.window r.window).values? = some v →
          let x := r.rect.x0 + r.nextRead % (r.rect.x1 - r.rect.x0 + 1)
          let y := r.rect.y0 + r.nextRead / (r.rect.x1 - r.rect.x0 + 1)
          let words := v.pixelWords x y
          let joined (q : Region) : State := { free with streamer := { s.streamer with region := some q } }
          (r.words.length + 1 < words.length → exec (.memoryAnswer md) s
            = .next (joined { r with words := r.words ++ [word] }))
          ∧ (words.length = r.words.length + 1 → exec (.memoryAnswer md) s = .next (joined { r with
              words := [], nextRead := r.nextRead + 1
              ready := r.ready
                ++ [toPanel v s.streamer.panelFormat (v.pixelFrom (words.zip (r.words ++ [word])) x y)] }))))

/-- ACCESS_TIMEOUT (R61, R62, R112, R129, R134 to R138): the port is freed; a host read fails its beat with MEM_TIMEOUT; a
drain access is presented once more, and at its entry's second timeout the entry is lost with MEM_TIMEOUT; a STREAM read
stalls the streamer with ABORT and MEM_TIMEOUT and leaves the stream wait count 0; an abandoned access does nothing more. What
a beat done or an entry removed lets follow, by the occupant of the long-operation slot, belongs to the same command (the
model's choice, log 6), its events and MEM_TIMEOUT in an order that is left open (R186; log 28). On a free port nothing
changes (the model's choice, log 5). -/
def Obligations.AccessTimeoutOutcomes : Prop :=
  ∀ (s : State),
    (s.port.access = none → exec .accessTimeout s = .next s)
    ∧ ∀ a : Access, s.port.access = some a →
      let free : State := { s with port := { s.port with access := none } }
      (a.abandoned = true → exec .accessTimeout s = .next free)
      ∧ (a.abandoned = false →
        (∀ c words got, a.requester = .hostRead → s.host.action = some (.read c words got) → s.mgmt.slot = none →
          DrainChosen s → exec .accessTimeout s
            = .next ((free.post (.hostReadTimeout (c.map Carried.window) a.address)).finishBeat ⟨true, 0⟩))
        ∧ (∀ c words got, a.requester = .hostRead → s.host.action = some (.read c words got) → exec .accessTimeout s
            = .next ((free.finishBeat ⟨true, 0⟩).goesOn [.hostReadTimeout (c.map Carried.window) a.address]))
        ∧ (∀ e, a.requester = .drain → s.merge.drain? = some e → e.retryUsed = false →
          let next : EntryState := if e.state = .fetching ∧ e.complete = true then .pendingWrite else e.state
          let retried : Entry := { e with retryUsed := true, state := next }
          let entries := modifyFirst Entry.draining (fun _ => retried) s.merge.entries
          exec .accessTimeout s = .next { free with merge := { s.merge with entries := entries } })
        ∧ (∀ e, a.requester = .drain → s.merge.drain? = some e → e.retryUsed = true → s.mgmt.slot = none →
          s.host.action = none → exec .accessTimeout s = .next (State.chooseDrain (State.post
            { free with merge := { s.merge with entries := s.merge.entries.eraseP Entry.draining } }
            (.drainTimeout a.write.isSome e.creator e.word))))
        ∧ (∀ e, a.requester = .drain → s.merge.drain? = some e → e.retryUsed = true → exec .accessTimeout s
            = .next ((free.withoutDrain e.word).removalGoesOn [.drainTimeout a.write.isSome e.creator e.word]))
        ∧ (∀ r, a.requester = .stream → s.streamer.region = some r → exec .accessTimeout s = .next (State.post
            { s with
              damage := { s.damage with records := s.damage.records.map fun q => { q with state := .pending } }
              streamer := { s.streamer with
                state := .stalled, passOpen := false, region := none, answerTimer := none }
              link := { s.link with abortsOwed := s.link.abortsOwed + 1 }
              port := { s.port with access := none, streamWait := 0 } } (.streamTimeout r.window a.address))))

/-- A waiting beat and a FLUSH or close in flight at a removal (R30, R49, R50, R60, R66, R77): the entry written leaves the wait
set of a FLUSH, which ends with the last of them; a close ends once no entry of its window is left and no decoded write beat
of it waits; and a beat that can now be taken is taken, with its run, before the next drain choice, in the same command (the
model's choice, log 6). -/
def Obligations.RetirementServesWaiters : Prop :=
  ∀ (s : State) (md : Word) (a : Access) (e : Entry) (w : Word), s.port.access = some a → a.abandoned = false →
    a.requester = .drain → a.write = some w → s.merge.drain? = some e →
    let left : MergeQueue := { s.merge with entries := s.merge.entries.eraseP Entry.draining }
    let free : State := { s with port := { s.port with access := none } }
    (∀ sel ws, s.mgmt.slot = some (.flush sel ws) → s.host.action = none →
      let kept := ws.filter fun b => b != e.word
      (kept ≠ [] → exec (.memoryAnswer md) s = .next (State.chooseDrain
        { free with merge := left, mgmt := { s.mgmt with slot := some (.flush sel kept) } }))
      ∧ (kept = [] → exec (.memoryAnswer md) s = .next (State.chooseDrain (State.post
        { free with merge := left, mgmt := { s.mgmt with slot := none } } (.opDone 0x20 .done)))))
    ∧ (∀ n, s.mgmt.slot = some (.closeWindow n) → s.host.action = none →
      ((∃ f ∈ left.entries, f.creator = .window n) →
        exec (.memoryAnswer md) s = .next (State.chooseDrain { free with merge := left }))
      ∧ ((∀ f ∈ left.entries, f.creator ≠ .window n) → exec (.memoryAnswer md) s = .next (State.chooseDrain (State.post
        { free.setWindow n .unused with merge := left, mgmt := { s.mgmt with slot := none } } (.opDone 0x12 .done)))))
    ∧ (∀ n lanes run, s.mgmt.slot = none ∨ s.mgmt.slot = some (.closeWindow n) →
      s.host.action = some (.write (.window n) lanes run) → left.canTake lanes = false →
      exec (.memoryAnswer md) s = .next (State.chooseDrain { free with merge := left }))
    ∧ (∀ lanes, s.mgmt.slot = none → s.host.action = some (.write .bypass lanes none) → left.canTake lanes = true →
      exec (.memoryAnswer md) s = .next (State.chooseDrain (State.finishBeat
        { free with merge := left.takeSet .bypass false false lanes } ⟨false, 0⟩)))
    ∧ ∀ c lanes d r, s.mgmt.slot = none → s.host.action = some (.write c lanes (some (d, r))) →
      left.canTake lanes = true →
      let taken : State := { free with merge := left.takeSet c (s.marksNew c) false lanes }
      (∀ v, s.window d.window = .active v → d.values.tracking = true → v.scroll = d.values.scroll →
        exec (.memoryAnswer md) s
          = .next (State.chooseDrain ((taken.insertDamage d.window r).takeIfIdle.finishBeat ⟨false, 0⟩)))
      ∧ (∀ v, s.window d.window = .active v → d.values.tracking = true → v.scroll ≠ d.values.scroll →
        exec (.memoryAnswer md) s = .next (State.chooseDrain
          ((taken.insertDamage d.window ⟨0, 0, v.width - 1, v.height - 1⟩).takeIfIdle.finishBeat ⟨false, 0⟩)))
      ∧ ((∀ v, s.window d.window = .active v → d.values.tracking = false) →
        exec (.memoryAnswer md) s = .next (State.chooseDrain (taken.finishBeat ⟨false, 0⟩)))

/-! ### Formats and layouts -/

/-- Formats and depth conversion (sections 1.1 to 1.5): a channel of depth d converted to depth e (R4) is unchanged for equal
depths, keeps its top digits when narrowed, and when widened repeats its digits, most significant first, until e are written;
0 widens to 0 and the largest to the largest. With it go the channels that each format gives a value, the unused field left
out (R1 to R3), the stored, host and panel value that the cases grey and colour of the conversion give (R5 to R8), and the
comparison with the key (R9). -/
def Obligations.DepthConversion : Prop :=
  (∀ (v d e : Nat), 1 ≤ d → v < 2 ^ d →
    (e = d → convertDepth v d e = v)
    ∧ (e < d → convertDepth v d e = v / 2 ^ (d - e))
    ∧ (d < e → convertDepth v d e < 2 ^ e
        ∧ (∀ i < e, (convertDepth v d e).testBit (e - 1 - i) = v.testBit (d - 1 - i % d))
        ∧ convertDepth 0 d e = 0 ∧ convertDepth (2 ^ d - 1) d e = 2 ^ e - 1))
  ∧ (∀ u r g b : Nat, r < 256 → g < 256 → b < 256 →
    hostChannels .h8 g = .grey ⟨8, g⟩
    ∧ hostChannels .h32 (u * 16777216 + r * 65536 + g * 256 + b) = .colour ⟨8, r⟩ ⟨8, g⟩ ⟨8, b⟩
    ∧ storedChannels .c24 .rgb (r * 65536 + g * 256 + b) = .colour ⟨8, r⟩ ⟨8, g⟩ ⟨8, b⟩
    ∧ storedChannels .c24 .bgr (b * 65536 + g * 256 + r) = .colour ⟨8, r⟩ ⟨8, g⟩ ⟨8, b⟩
    ∧ storedChannels .c32 .rgb (u * 16777216 + r * 65536 + g * 256 + b) = .colour ⟨8, r⟩ ⟨8, g⟩ ⟨8, b⟩
    ∧ storedChannels .c32 .bgr (u * 16777216 + b * 65536 + g * 256 + r) = .colour ⟨8, r⟩ ⟨8, g⟩ ⟨8, b⟩
    ∧ (r < 32 → g < 64 → b < 32 → hostChannels .h16 (r * 2048 + g * 32 + b) = .colour ⟨5, r⟩ ⟨6, g⟩ ⟨5, b⟩
      ∧ storedChannels .c16 .rgb (r * 2048 + g * 32 + b) = .colour ⟨5, r⟩ ⟨6, g⟩ ⟨5, b⟩
      ∧ storedChannels .c16 .bgr (b * 2048 + g * 32 + r) = .colour ⟨5, r⟩ ⟨6, g⟩ ⟨5, b⟩)
    ∧ (r < 16 → g < 16 → b < 16 → storedChannels .c12 .rgb (r * 256 + g * 16 + b) = .colour ⟨4, r⟩ ⟨4, g⟩ ⟨4, b⟩
      ∧ storedChannels .c12 .bgr (b * 256 + g * 16 + r) = .colour ⟨4, r⟩ ⟨4, g⟩ ⟨4, b⟩
      ∧ ∀ o, storedChannels .l4 o g = .grey ⟨4, g⟩)
    ∧ (r < 8 → g < 8 → b < 4 → storedChannels .c8 .rgb (r * 32 + g * 4 + b) = .colour ⟨3, r⟩ ⟨3, g⟩ ⟨2, b⟩
      ∧ storedChannels .c8 .bgr (r * 32 + g * 4 + b) = .colour ⟨2, b⟩ ⟨3, g⟩ ⟨3, r⟩))
  ∧ (∀ (v : WindowValues) (p : Nat) (f : PanelFormat),
    let stored (y r g b : Nat → Nat) : Nat :=
      let first := if v.order = .rgb then r else b
      let last := if v.order = .rgb then b else r
      match v.storedFormat with
      | .l4 => y 4
      | .c8 => first 3 * 32 + g 3 * 4 + last 2
      | .c12 => first 4 * 256 + g 4 * 16 + last 4
      | .c16 => first 5 * 2048 + g 6 * 32 + last 5
      | .c24 | .c32 => first 8 * 65536 + g 8 * 256 + last 8
    let host (y r g b : Nat → Nat) : Nat := match v.hostFormat with
      | .h8 => y 8
      | .h16 => r 5 * 2048 + g 6 * 32 + b 5
      | .h32 => r 8 * 65536 + g 8 * 256 + b 8
    let panel (r g b : Nat → Nat) : Nat := match f with
      | .p16 => r 5 * 2048 + g 6 * 32 + b 5
      | .p24 => r 8 * 65536 + g 8 * 256 + b 8
    let conv (c : Channel) (depth : Nat) : Nat := convertDepth c.value c.depth depth
    let luma (r g b : Channel) (depth : Nat) : Nat := convertDepth ((2 * conv r 8 + 5 * conv g 8 + conv b 8) / 8) 8 depth
    (∀ c, hostChannels v.hostFormat p = .grey c → toStored v p = stored (conv c) (conv c) (conv c) (conv c))
    ∧ (∀ r g b, hostChannels v.hostFormat p = .colour r g b → toStored v p = stored (luma r g b) (conv r) (conv g) (conv b))
    ∧ (∀ c, storedChannels v.storedFormat v.order p = .grey c →
      toHost v p = host (conv c) (conv c) (conv c) (conv c) ∧ toPanel v f p = panel (conv c) (conv c) (conv c))
    ∧ ∀ r g b, storedChannels v.storedFormat v.order p = .colour r g b →
      toHost v p = host (luma r g b) (conv r) (conv g) (conv b) ∧ toPanel v f p = panel (conv r) (conv g) (conv b))
  ∧ ∀ key pixel : Nat, (equalsKey .h8 key pixel = true ↔ pixel = key) ∧ (equalsKey .h16 key pixel = true ↔ pixel = key)
    ∧ (equalsKey .h32 key pixel = true ↔ pixel % 16777216 = key)

/-- R10 and R41: the stored coordinates of a logical pixel and the place of each of its lanes, which lies inside its stored row
and inside the window's footprint; within one window distinct pixels, and distinct lanes of one pixel, take distinct
lanes, and every stored position is some logical pixel's. On these rest what a window beat does: the pixels a write beat
applies, the lanes it hands over and its run (R77, R149), the words a read beat asks for, and the pixels and data it makes of
them (R7, R152). The words of a pixel are those of its lanes, the lower address first (R11, R103), and a bypass write hands
over lanes 2k and 2k + 1 of its word for each enabled byte k (R40, R154). -/
def Obligations.PixelPlacement : Prop :=
  (∀ (w : Word) (n : Fin 8), (laneOf w n).toNat = w.toNat / 16 ^ n.val % 16)
  ∧ (∀ (a : Nat) (b : WriteBeat),
    ((bypassLanes a b).map LaneWrite.lane).Nodup
    ∧ ∀ l : LaneWrite, l ∈ bypassLanes a b ↔ l.word = a
      ∧ ∃ k < 4, b.enables.getLsbD k = true ∧ (l.lane.val = 2 * k ∨ l.lane.val = 2 * k + 1)
        ∧ l.bits.toNat = b.data.toNat / 16 ^ l.lane.val % 16)
  ∧ (∀ (v : WindowValues) (x y : Nat), v.inRange = true → x < v.width → y < v.height →
    (v.pixelWords x y).Pairwise (· < ·)
    ∧ ∀ a, a ∈ v.pixelWords x y ↔ ∃ i < v.storedFormat.lanes, a = (v.pixelLane x y i).1)
  ∧ (∀ (v : WindowValues), v.inRange = true →
    (∀ sx < v.width, ∃ x < v.width, v.storedX x = sx) ∧ (∀ sy < v.height, ∃ y < v.height, v.storedY y = sy)
    ∧ ∀ (x y i : Nat), x < v.width → y < v.height → i < v.storedFormat.lanes →
      let sx := if v.mirrorX = true then v.width - 1 - x else x
      let sy := ((if v.mirrorY = true then v.height - 1 - y else y) + v.scroll) % v.height
      let l := sx * v.storedFormat.lanes
      v.storedX x = sx ∧ v.storedY y = sy ∧ sx < v.width ∧ sy < v.height
      ∧ v.pixelLane x y i = (v.memBase + sy * v.pitch * 4 + 4 * ((l + i) / 8), ⟨(l + i) % 8, Nat.mod_lt _ (by decide)⟩)
      ∧ (l + i) / 8 < v.pitch
      ∧ (v.pixelLane x y i).1 % 4 = 0 ∧ v.memBase ≤ (v.pixelLane x y i).1
      ∧ (v.pixelLane x y i).1 + 4 ≤ v.memBase + v.height * v.pitch * 4
      ∧ ∀ x' y' i', x' < v.width → y' < v.height → i' < v.storedFormat.lanes →
        v.pixelLane x y i = v.pixelLane x' y' i' → x = x' ∧ y = y' ∧ i = i')
  ∧ (∀ (c : Carried) (b : WriteBeat),
    let n := c.values.hostFormat.bytes
    let pixel (k : Nat) : Nat := b.data.toNat / 256 ^ (n * k) % 256 ^ n
    let byteEnabled (k j : Nat) : Prop := b.enables.getLsbD (n * k + j) = true
    (partlyEnabled c.values.hostFormat b.enables = true
      ↔ ∃ k < 4 / n, (∃ j < n, byteEnabled k j) ∧ ∃ j < n, ¬ byteEnabled k j)
    ∧ (∀ k, k ∈ c.applied b ↔ k < 4 / n ∧ (∀ j < n, byteEnabled k j)
      ∧ (∀ r ∈ c.values.clip, r.x0 ≤ c.x + k ∧ c.x + k ≤ r.x1 ∧ r.y0 ≤ c.y ∧ c.y ≤ r.y1)
      ∧ ∀ key ∈ c.values.key, equalsKey c.values.hostFormat key (pixel k) = false)
    ∧ (∀ l : LaneWrite, l ∈ c.lanes b ↔ ∃ k ∈ c.applied b, ∃ i < c.values.storedFormat.lanes,
        (l.word, l.lane) = c.values.pixelLane (c.x + k) c.y i
        ∧ l.bits = BitVec.ofNat 4 (toStored c.values (pixel k) / 16 ^ i))
    ∧ ∀ low high, low ∈ c.applied b → high ∈ c.applied b → (∀ k ∈ c.applied b, low ≤ k ∧ k ≤ high) →
      c.run b = ⟨c.x + low, c.y, c.x + high, c.y⟩)
  ∧ ∀ (c : Carried) (words : List (Nat × Word)),
    let n := c.values.hostFormat.bytes
    c.words.Pairwise (· < ·)
    ∧ (∀ a, a ∈ c.words ↔ ∃ k < 4 / n, ∃ i < c.values.storedFormat.lanes, a = (c.values.pixelLane (c.x + k) c.y i).1)
    ∧ ∀ k < 4 / n, (c.data words).toNat / 256 ^ (n * k) % 256 ^ n
        = toHost c.values (c.values.pixelFrom words (c.x + k) c.y)
      ∧ ∀ i < c.values.storedFormat.lanes, ∀ w, words.lookup (c.values.pixelLane (c.x + k) c.y i).1 = some w →
        c.values.pixelFrom words (c.x + k) c.y / 16 ^ i % 16
          = (laneOf w (c.values.pixelLane (c.x + k) c.y i).2).toNat

/-- R20: the host span is the least multiple of 4096 that holds the pixel bytes, so the slack is a whole number of words of at
most 4092 bytes, and the addresses claimed are those from host base to host base + span − 1. -/
def Obligations.HostSpanAndSlack : Prop :=
  ∀ v : WindowValues, v.sound →
    v.hostSpan % 4096 = 0 ∧ v.pixelBytes ≤ v.hostSpan ∧ v.hostSpan - v.pixelBytes ≤ 4092
    ∧ (v.hostSpan - v.pixelBytes) % 4 = 0 ∧ v.pixelBytes = v.width * v.height * v.hostFormat.bytes
    ∧ ∀ a, v.claims a = true ↔ v.hostBase ≤ a ∧ a ≤ v.hostBase + v.hostSpan - 1

/-! ### What every step keeps -/

/-- The merge queue stays sound and no drain choice is left open (R46, R47, R55); every word address it holds, every footprint
of a window in use and the access in flight stay below the configured memory size (R46, R47, R130, R139). -/
def Obligations.MergeQueueStaysSound : Prop :=
  ∀ s t : State, step s = .next t → (MergeSound s → MergeSound t) ∧ (DrainChosen s → DrainChosen t)
    ∧ (TableSound s → HostSound s → OperationSound s → AddressSound s → AddressSound t)

/-- The event queue holds at most 16 records in sequence (R182, R185). -/
def Obligations.EventQueueStaysSound : Prop :=
  ∀ s t : State, EventsSound s → step s = .next t → EventsSound t

/-- Windows in use keep values in range and disjoint host ranges, and the scroll stays below the height (R19, R25, R32). -/
def Obligations.ApertureTableStaysSound : Prop :=
  ∀ s t : State, TableSound s → step s = .next t → TableSound t

/-- The request queue holds at most 8 sound records and the stream wait count never passes 8 (R132, R143); the settings in force
stay in the ranges of R18. What happens on the host bus keeps the request queue, the answer going out and the WRITE under way
sound as well (R142, R147); that it comes beside the queue of commands is the model's choice (log 8). -/
def Obligations.PortsStaySound : Prop :=
  (∀ s t : State, step s = .next t →
    (HostSound s → HostSound t) ∧ (s.port.streamWait ≤ 8 → t.port.streamWait ≤ 8) ∧ (SettingsSound s → SettingsSound t))
  ∧ ∀ (e : HostBusEvent) (s t : State), hostBusStep e s = .next t → HostSound s → HostSound t

/-- The profile store (R195 to R197): its bytes keep their form and agree with the held states, a programmed bit never turns
back to 1, and a slot's held state only moves forward, a power-on or the RESET pin making a slot in PROGRAMMING DAMAGED. -/
def Obligations.ProfileStoreStaysSound : Prop :=
  ∀ s t : State, step s = .next t →
    (∀ a, otpRead t.store.otp a &&& otpRead s.store.otp a = otpRead t.store.otp a)
    ∧ (OperationSound s → StoreSound s → StoreSound t ∧ ∀ n, (s.heldState n).canBecome (t.heldState n) = true)

/-- The long-operation slot, the host port's state, the write in flight and the load stay in agreement (R145, R163, R169). -/
def Obligations.OperationsStaySound : Prop :=
  ∀ s t : State, OperationSound s → step s = .next t → OperationSound t

/-- The streamer and the damage list stay in agreement: at most one record is STREAMING, and one exactly in SENDING and
AWAIT_ANSWER (R96 to R98). -/
def Obligations.StreamerStaysSound : Prop :=
  ∀ s t : State, OperationSound s → DamageSound s → StreamSound s → step s = .next t → StreamSound t

/-- The damage list holds at most 24 records, each of an ACTIVE window and within it, and each in a place of its own in the touch
order (R74, R76). The places are stamps (the model's choice, log 16). A request's address is word-aligned (R142), as in
HostSound, which PortsStaySound keeps. -/
def Obligations.DamageListStaysSound : Prop :=
  ∀ s t : State, TableSound s → HostSound s → OperationSound s → StreamSound s → DamageSound s → step s = .next t →
    DamageSound t
end

