-- ==== Sys2Proof/Laws/State.lean ====
section
/-!
SUPPORT. What each named update of the state changes and what it leaves alone: one lemma for each field, true by
unfolding. Later proofs cite these and unfold no record update.
-/

namespace Sys2Proof.Machine

/-! ### `post`: An event is posted (R183) -/

@[simp] theorem State.post_table (s : State) (e : Event) : (s.post e).table = s.table := rfl
@[simp] theorem State.post_merge (s : State) (e : Event) : (s.post e).merge = s.merge := rfl
@[simp] theorem State.post_damage (s : State) (e : Event) : (s.post e).damage = s.damage := rfl
@[simp] theorem State.post_streamer (s : State) (e : Event) : (s.post e).streamer = s.streamer := rfl
@[simp] theorem State.post_link (s : State) (e : Event) : (s.post e).link = s.link := rfl
@[simp] theorem State.post_port (s : State) (e : Event) : (s.post e).port = s.port := rfl
@[simp] theorem State.post_host (s : State) (e : Event) : (s.post e).host = s.host := rfl
@[simp] theorem State.post_mgmt (s : State) (e : Event) : (s.post e).mgmt = s.mgmt := rfl
@[simp] theorem State.post_store (s : State) (e : Event) : (s.post e).store = s.store := rfl
@[simp] theorem State.post_freeCount (s : State) (e : Event) : (s.post e).freeCount = s.freeCount := rfl
@[simp] theorem State.post_pending (s : State) (e : Event) : (s.post e).pending = s.pending := rfl
@[simp] theorem State.post_events (s : State) (e : Event) : (s.post e).events = s.events.post e := rfl

/-! ### `postTogether`: The events of one moment are posted (R186) -/

@[simp] theorem State.postTogether_table (s : State) (es : List Event) : (s.postTogether es).table = s.table := rfl
@[simp] theorem State.postTogether_merge (s : State) (es : List Event) : (s.postTogether es).merge = s.merge := rfl
@[simp] theorem State.postTogether_damage (s : State) (es : List Event) : (s.postTogether es).damage = s.damage := rfl
@[simp] theorem State.postTogether_streamer (s : State) (es : List Event) : (s.postTogether es).streamer = s.streamer := rfl
@[simp] theorem State.postTogether_link (s : State) (es : List Event) : (s.postTogether es).link = s.link := rfl
@[simp] theorem State.postTogether_port (s : State) (es : List Event) : (s.postTogether es).port = s.port := rfl
@[simp] theorem State.postTogether_host (s : State) (es : List Event) : (s.postTogether es).host = s.host := rfl
@[simp] theorem State.postTogether_mgmt (s : State) (es : List Event) : (s.postTogether es).mgmt = s.mgmt := rfl
@[simp] theorem State.postTogether_store (s : State) (es : List Event) : (s.postTogether es).store = s.store := rfl
@[simp] theorem State.postTogether_pending (s : State) (es : List Event) : (s.postTogether es).pending = s.pending := rfl
@[simp] theorem State.postTogether_events (s : State) (es : List Event) :
    (s.postTogether es).events = (arrange s.freeCount es).foldl EventQueue.post s.events := rfl
@[simp] theorem State.postTogether_freeCount (s : State) (es : List Event) : (s.postTogether es).freeCount = s.freeCount + (es.length - 1) := rfl

/-! ### `setWindow`: A window's record is replaced (R19) -/

@[simp] theorem State.setWindow_merge (s : State) (n : Fin 8) (w : Window) : (s.setWindow n w).merge = s.merge := rfl
@[simp] theorem State.setWindow_damage (s : State) (n : Fin 8) (w : Window) : (s.setWindow n w).damage = s.damage := rfl
@[simp] theorem State.setWindow_streamer (s : State) (n : Fin 8) (w : Window) : (s.setWindow n w).streamer = s.streamer := rfl
@[simp] theorem State.setWindow_link (s : State) (n : Fin 8) (w : Window) : (s.setWindow n w).link = s.link := rfl
@[simp] theorem State.setWindow_port (s : State) (n : Fin 8) (w : Window) : (s.setWindow n w).port = s.port := rfl
@[simp] theorem State.setWindow_host (s : State) (n : Fin 8) (w : Window) : (s.setWindow n w).host = s.host := rfl
@[simp] theorem State.setWindow_mgmt (s : State) (n : Fin 8) (w : Window) : (s.setWindow n w).mgmt = s.mgmt := rfl
@[simp] theorem State.setWindow_events (s : State) (n : Fin 8) (w : Window) : (s.setWindow n w).events = s.events := rfl
@[simp] theorem State.setWindow_store (s : State) (n : Fin 8) (w : Window) : (s.setWindow n w).store = s.store := rfl
@[simp] theorem State.setWindow_freeCount (s : State) (n : Fin 8) (w : Window) : (s.setWindow n w).freeCount = s.freeCount := rfl
@[simp] theorem State.setWindow_pending (s : State) (n : Fin 8) (w : Window) : (s.setWindow n w).pending = s.pending := rfl
@[simp] theorem State.setWindow_table_windows (s : State) (n : Fin 8) (w : Window) :
    (s.setWindow n w).table.windows = s.table.windows.set n w := rfl
@[simp] theorem State.setWindow_table_staging (s : State) (n : Fin 8) (w : Window) :
    (s.setWindow n w).table.staging = s.table.staging := rfl

/-! ### `answer`: The response buffer is replaced (R160) -/

@[simp] theorem State.answer_table (s : State) (r : Result) (d : List Byte) : (s.answer r d).table = s.table := rfl
@[simp] theorem State.answer_merge (s : State) (r : Result) (d : List Byte) : (s.answer r d).merge = s.merge := rfl
@[simp] theorem State.answer_damage (s : State) (r : Result) (d : List Byte) : (s.answer r d).damage = s.damage := rfl
@[simp] theorem State.answer_streamer (s : State) (r : Result) (d : List Byte) : (s.answer r d).streamer = s.streamer := rfl
@[simp] theorem State.answer_link (s : State) (r : Result) (d : List Byte) : (s.answer r d).link = s.link := rfl
@[simp] theorem State.answer_port (s : State) (r : Result) (d : List Byte) : (s.answer r d).port = s.port := rfl
@[simp] theorem State.answer_host (s : State) (r : Result) (d : List Byte) : (s.answer r d).host = s.host := rfl
@[simp] theorem State.answer_events (s : State) (r : Result) (d : List Byte) : (s.answer r d).events = s.events := rfl
@[simp] theorem State.answer_store (s : State) (r : Result) (d : List Byte) : (s.answer r d).store = s.store := rfl
@[simp] theorem State.answer_freeCount (s : State) (r : Result) (d : List Byte) : (s.answer r d).freeCount = s.freeCount := rfl
@[simp] theorem State.answer_pending (s : State) (r : Result) (d : List Byte) : (s.answer r d).pending = s.pending := rfl
@[simp] theorem State.answer_mgmt_asel (s : State) (r : Result) (d : List Byte) : (s.answer r d).mgmt.asel = s.mgmt.asel :=
  rfl
@[simp] theorem State.answer_mgmt_response (s : State) (r : Result) (d : List Byte) :
    (s.answer r d).mgmt.response = byteOf r.code :: d := rfl
@[simp] theorem State.answer_mgmt_slot (s : State) (r : Result) (d : List Byte) : (s.answer r d).mgmt.slot = s.mgmt.slot :=
  rfl
@[simp] theorem State.answer_mgmt_arm (s : State) (r : Result) (d : List Byte) : (s.answer r d).mgmt.arm = s.mgmt.arm := rfl
@[simp] theorem State.answer_mgmt_loadOutcome (s : State) (r : Result) (d : List Byte) :
    (s.answer r d).mgmt.loadOutcome = s.mgmt.loadOutcome := rfl
@[simp] theorem State.answer_mgmt_transfer (s : State) (r : Result) (d : List Byte) :
    (s.answer r d).mgmt.transfer = s.mgmt.transfer := rfl

/-! ### `reply`: A frame is answered (R160, R165) -/

@[simp] theorem State.reply_table (s : State) (d : List Byte) : (s.reply d).table = s.table := rfl
@[simp] theorem State.reply_merge (s : State) (d : List Byte) : (s.reply d).merge = s.merge := rfl
@[simp] theorem State.reply_damage (s : State) (d : List Byte) : (s.reply d).damage = s.damage := rfl
@[simp] theorem State.reply_streamer (s : State) (d : List Byte) : (s.reply d).streamer = s.streamer := rfl
@[simp] theorem State.reply_link (s : State) (d : List Byte) : (s.reply d).link = s.link := rfl
@[simp] theorem State.reply_port (s : State) (d : List Byte) : (s.reply d).port = s.port := rfl
@[simp] theorem State.reply_host (s : State) (d : List Byte) : (s.reply d).host = s.host := rfl
@[simp] theorem State.reply_events (s : State) (d : List Byte) : (s.reply d).events = s.events := rfl
@[simp] theorem State.reply_store (s : State) (d : List Byte) : (s.reply d).store = s.store := rfl
@[simp] theorem State.reply_freeCount (s : State) (d : List Byte) : (s.reply d).freeCount = s.freeCount := rfl
@[simp] theorem State.reply_pending (s : State) (d : List Byte) : (s.reply d).pending = s.pending := rfl
@[simp] theorem State.reply_mgmt_asel (s : State) (d : List Byte) : (s.reply d).mgmt.asel = s.mgmt.asel := rfl
@[simp] theorem State.reply_mgmt_response (s : State) (d : List Byte) : (s.reply d).mgmt.response = d := rfl
@[simp] theorem State.reply_mgmt_slot (s : State) (d : List Byte) : (s.reply d).mgmt.slot = s.mgmt.slot := rfl
@[simp] theorem State.reply_mgmt_arm (s : State) (d : List Byte) : (s.reply d).mgmt.arm = none := rfl
@[simp] theorem State.reply_mgmt_loadOutcome (s : State) (d : List Byte) : (s.reply d).mgmt.loadOutcome = s.mgmt.loadOutcome :=
  rfl
@[simp] theorem State.reply_mgmt_transfer (s : State) (d : List Byte) : (s.reply d).mgmt.transfer = s.mgmt.transfer := rfl

/-! ### `setSlot`: The long-operation slot is set (R163) -/

@[simp] theorem State.setSlot_table (s : State) (o : Option LongOp) : (s.setSlot o).table = s.table := rfl
@[simp] theorem State.setSlot_merge (s : State) (o : Option LongOp) : (s.setSlot o).merge = s.merge := rfl
@[simp] theorem State.setSlot_damage (s : State) (o : Option LongOp) : (s.setSlot o).damage = s.damage := rfl
@[simp] theorem State.setSlot_streamer (s : State) (o : Option LongOp) : (s.setSlot o).streamer = s.streamer := rfl
@[simp] theorem State.setSlot_link (s : State) (o : Option LongOp) : (s.setSlot o).link = s.link := rfl
@[simp] theorem State.setSlot_port (s : State) (o : Option LongOp) : (s.setSlot o).port = s.port := rfl
@[simp] theorem State.setSlot_host (s : State) (o : Option LongOp) : (s.setSlot o).host = s.host := rfl
@[simp] theorem State.setSlot_events (s : State) (o : Option LongOp) : (s.setSlot o).events = s.events := rfl
@[simp] theorem State.setSlot_store (s : State) (o : Option LongOp) : (s.setSlot o).store = s.store := rfl
@[simp] theorem State.setSlot_freeCount (s : State) (o : Option LongOp) : (s.setSlot o).freeCount = s.freeCount := rfl
@[simp] theorem State.setSlot_pending (s : State) (o : Option LongOp) : (s.setSlot o).pending = s.pending := rfl
@[simp] theorem State.setSlot_mgmt_asel (s : State) (o : Option LongOp) : (s.setSlot o).mgmt.asel = s.mgmt.asel := rfl
@[simp] theorem State.setSlot_mgmt_response (s : State) (o : Option LongOp) : (s.setSlot o).mgmt.response = s.mgmt.response :=
  rfl
@[simp] theorem State.setSlot_mgmt_slot (s : State) (o : Option LongOp) : (s.setSlot o).mgmt.slot = o := rfl
@[simp] theorem State.setSlot_mgmt_arm (s : State) (o : Option LongOp) : (s.setSlot o).mgmt.arm = s.mgmt.arm := rfl
@[simp] theorem State.setSlot_mgmt_loadOutcome (s : State) (o : Option LongOp) :
    (s.setSlot o).mgmt.loadOutcome = s.mgmt.loadOutcome := rfl
@[simp] theorem State.setSlot_mgmt_transfer (s : State) (o : Option LongOp) : (s.setSlot o).mgmt.transfer = s.mgmt.transfer :=
  rfl

/-! ### `setArm`: The arm is set (R165) -/

@[simp] theorem State.setArm_table (s : State) (a : Option (Fin 4)) : (s.setArm a).table = s.table := rfl
@[simp] theorem State.setArm_merge (s : State) (a : Option (Fin 4)) : (s.setArm a).merge = s.merge := rfl
@[simp] theorem State.setArm_damage (s : State) (a : Option (Fin 4)) : (s.setArm a).damage = s.damage := rfl
@[simp] theorem State.setArm_streamer (s : State) (a : Option (Fin 4)) : (s.setArm a).streamer = s.streamer := rfl
@[simp] theorem State.setArm_link (s : State) (a : Option (Fin 4)) : (s.setArm a).link = s.link := rfl
@[simp] theorem State.setArm_port (s : State) (a : Option (Fin 4)) : (s.setArm a).port = s.port := rfl
@[simp] theorem State.setArm_host (s : State) (a : Option (Fin 4)) : (s.setArm a).host = s.host := rfl
@[simp] theorem State.setArm_events (s : State) (a : Option (Fin 4)) : (s.setArm a).events = s.events := rfl
@[simp] theorem State.setArm_store (s : State) (a : Option (Fin 4)) : (s.setArm a).store = s.store := rfl
@[simp] theorem State.setArm_freeCount (s : State) (a : Option (Fin 4)) : (s.setArm a).freeCount = s.freeCount := rfl
@[simp] theorem State.setArm_pending (s : State) (a : Option (Fin 4)) : (s.setArm a).pending = s.pending := rfl
@[simp] theorem State.setArm_mgmt_asel (s : State) (a : Option (Fin 4)) : (s.setArm a).mgmt.asel = s.mgmt.asel := rfl
@[simp] theorem State.setArm_mgmt_response (s : State) (a : Option (Fin 4)) : (s.setArm a).mgmt.response = s.mgmt.response :=
  rfl
@[simp] theorem State.setArm_mgmt_slot (s : State) (a : Option (Fin 4)) : (s.setArm a).mgmt.slot = s.mgmt.slot := rfl
@[simp] theorem State.setArm_mgmt_arm (s : State) (a : Option (Fin 4)) : (s.setArm a).mgmt.arm = a := rfl
@[simp] theorem State.setArm_mgmt_loadOutcome (s : State) (a : Option (Fin 4)) :
    (s.setArm a).mgmt.loadOutcome = s.mgmt.loadOutcome := rfl
@[simp] theorem State.setArm_mgmt_transfer (s : State) (a : Option (Fin 4)) : (s.setArm a).mgmt.transfer = s.mgmt.transfer :=
  rfl

/-! ### `setPort`: The host port's state is set (R145) -/

@[simp] theorem State.setPort_table (s : State) (p : PortState) : (s.setPort p).table = s.table := rfl
@[simp] theorem State.setPort_merge (s : State) (p : PortState) : (s.setPort p).merge = s.merge := rfl
@[simp] theorem State.setPort_damage (s : State) (p : PortState) : (s.setPort p).damage = s.damage := rfl
@[simp] theorem State.setPort_streamer (s : State) (p : PortState) : (s.setPort p).streamer = s.streamer := rfl
@[simp] theorem State.setPort_link (s : State) (p : PortState) : (s.setPort p).link = s.link := rfl
@[simp] theorem State.setPort_port (s : State) (p : PortState) : (s.setPort p).port = s.port := rfl
@[simp] theorem State.setPort_mgmt (s : State) (p : PortState) : (s.setPort p).mgmt = s.mgmt := rfl
@[simp] theorem State.setPort_events (s : State) (p : PortState) : (s.setPort p).events = s.events := rfl
@[simp] theorem State.setPort_store (s : State) (p : PortState) : (s.setPort p).store = s.store := rfl
@[simp] theorem State.setPort_freeCount (s : State) (p : PortState) : (s.setPort p).freeCount = s.freeCount := rfl
@[simp] theorem State.setPort_pending (s : State) (p : PortState) : (s.setPort p).pending = s.pending := rfl
@[simp] theorem State.setPort_host_state (s : State) (p : PortState) : (s.setPort p).host.state = p := rfl
@[simp] theorem State.setPort_host_requests (s : State) (p : PortState) : (s.setPort p).host.requests = s.host.requests :=
  rfl
@[simp] theorem State.setPort_host_action (s : State) (p : PortState) : (s.setPort p).host.action = s.host.action := rfl
@[simp] theorem State.setPort_host_answers (s : State) (p : PortState) : (s.setPort p).host.answers = s.host.answers := rfl
@[simp] theorem State.setPort_host_incoming (s : State) (p : PortState) : (s.setPort p).host.incoming = s.host.incoming :=
  rfl
@[simp] theorem State.setPort_host_sending (s : State) (p : PortState) : (s.setPort p).host.sending = s.host.sending := rfl

/-! ### `setLoad`: The load in progress is set (R208) -/

@[simp] theorem State.setLoad_table (s : State) (l : Option Load) : (s.setLoad l).table = s.table := rfl
@[simp] theorem State.setLoad_merge (s : State) (l : Option Load) : (s.setLoad l).merge = s.merge := rfl
@[simp] theorem State.setLoad_damage (s : State) (l : Option Load) : (s.setLoad l).damage = s.damage := rfl
@[simp] theorem State.setLoad_streamer (s : State) (l : Option Load) : (s.setLoad l).streamer = s.streamer := rfl
@[simp] theorem State.setLoad_link (s : State) (l : Option Load) : (s.setLoad l).link = s.link := rfl
@[simp] theorem State.setLoad_port (s : State) (l : Option Load) : (s.setLoad l).port = s.port := rfl
@[simp] theorem State.setLoad_host (s : State) (l : Option Load) : (s.setLoad l).host = s.host := rfl
@[simp] theorem State.setLoad_mgmt (s : State) (l : Option Load) : (s.setLoad l).mgmt = s.mgmt := rfl
@[simp] theorem State.setLoad_events (s : State) (l : Option Load) : (s.setLoad l).events = s.events := rfl
@[simp] theorem State.setLoad_freeCount (s : State) (l : Option Load) : (s.setLoad l).freeCount = s.freeCount := rfl
@[simp] theorem State.setLoad_pending (s : State) (l : Option Load) : (s.setLoad l).pending = s.pending := rfl
@[simp] theorem State.setLoad_store_otp (s : State) (l : Option Load) : (s.setLoad l).store.otp = s.store.otp := rfl
@[simp] theorem State.setLoad_store_held (s : State) (l : Option Load) : (s.setLoad l).store.held = s.store.held := rfl
@[simp] theorem State.setLoad_store_programming (s : State) (l : Option Load) :
    (s.setLoad l).store.programming = s.store.programming := rfl
@[simp] theorem State.setLoad_store_load (s : State) (l : Option Load) : (s.setLoad l).store.load = l := rfl

/-! ### `markSlot`: A mark is programmed and the held state changed (R196) -/

@[simp] theorem State.markSlot_table (s : State) (n : Fin 4) (m : Nat) (h : SlotState) : (s.markSlot n m h).table = s.table := rfl
@[simp] theorem State.markSlot_merge (s : State) (n : Fin 4) (m : Nat) (h : SlotState) : (s.markSlot n m h).merge = s.merge := rfl
@[simp] theorem State.markSlot_damage (s : State) (n : Fin 4) (m : Nat) (h : SlotState) : (s.markSlot n m h).damage = s.damage := rfl
@[simp] theorem State.markSlot_streamer (s : State) (n : Fin 4) (m : Nat) (h : SlotState) : (s.markSlot n m h).streamer = s.streamer := rfl
@[simp] theorem State.markSlot_link (s : State) (n : Fin 4) (m : Nat) (h : SlotState) : (s.markSlot n m h).link = s.link := rfl
@[simp] theorem State.markSlot_port (s : State) (n : Fin 4) (m : Nat) (h : SlotState) : (s.markSlot n m h).port = s.port := rfl
@[simp] theorem State.markSlot_host (s : State) (n : Fin 4) (m : Nat) (h : SlotState) : (s.markSlot n m h).host = s.host := rfl
@[simp] theorem State.markSlot_mgmt (s : State) (n : Fin 4) (m : Nat) (h : SlotState) : (s.markSlot n m h).mgmt = s.mgmt := rfl
@[simp] theorem State.markSlot_events (s : State) (n : Fin 4) (m : Nat) (h : SlotState) : (s.markSlot n m h).events = s.events := rfl
@[simp] theorem State.markSlot_freeCount (s : State) (n : Fin 4) (m : Nat) (h : SlotState) : (s.markSlot n m h).freeCount = s.freeCount := rfl
@[simp] theorem State.markSlot_pending (s : State) (n : Fin 4) (m : Nat) (h : SlotState) : (s.markSlot n m h).pending = s.pending := rfl
@[simp] theorem State.markSlot_store_otp (s : State) (n : Fin 4) (m : Nat) (h : SlotState) :
    (s.markSlot n m h).store.otp = otpProgram s.store.otp (slotAddress n m) 0x00 := rfl
@[simp] theorem State.markSlot_store_held (s : State) (n : Fin 4) (m : Nat) (h : SlotState) :
    (s.markSlot n m h).store.held = s.store.held.set n h := rfl
@[simp] theorem State.markSlot_store_programming (s : State) (n : Fin 4) (m : Nat) (h : SlotState) :
    (s.markSlot n m h).store.programming = s.store.programming := rfl
@[simp] theorem State.markSlot_store_load (s : State) (n : Fin 4) (m : Nat) (h : SlotState) :
    (s.markSlot n m h).store.load = s.store.load := rfl

/-! ### `enqueue`: A record joins the request queue (R143) -/

@[simp] theorem State.enqueue_table (s : State) (r : HostRecord) : (s.enqueue r).table = s.table := rfl
@[simp] theorem State.enqueue_merge (s : State) (r : HostRecord) : (s.enqueue r).merge = s.merge := rfl
@[simp] theorem State.enqueue_damage (s : State) (r : HostRecord) : (s.enqueue r).damage = s.damage := rfl
@[simp] theorem State.enqueue_streamer (s : State) (r : HostRecord) : (s.enqueue r).streamer = s.streamer := rfl
@[simp] theorem State.enqueue_link (s : State) (r : HostRecord) : (s.enqueue r).link = s.link := rfl
@[simp] theorem State.enqueue_port (s : State) (r : HostRecord) : (s.enqueue r).port = s.port := rfl
@[simp] theorem State.enqueue_mgmt (s : State) (r : HostRecord) : (s.enqueue r).mgmt = s.mgmt := rfl
@[simp] theorem State.enqueue_events (s : State) (r : HostRecord) : (s.enqueue r).events = s.events := rfl
@[simp] theorem State.enqueue_store (s : State) (r : HostRecord) : (s.enqueue r).store = s.store := rfl
@[simp] theorem State.enqueue_freeCount (s : State) (r : HostRecord) : (s.enqueue r).freeCount = s.freeCount := rfl
@[simp] theorem State.enqueue_pending (s : State) (r : HostRecord) : (s.enqueue r).pending = s.pending := rfl
@[simp] theorem State.enqueue_host_state (s : State) (r : HostRecord) : (s.enqueue r).host.state = s.host.state := rfl
@[simp] theorem State.enqueue_host_requests (s : State) (r : HostRecord) :
    (s.enqueue r).host.requests = s.host.requests ++ [r] := rfl
@[simp] theorem State.enqueue_host_action (s : State) (r : HostRecord) : (s.enqueue r).host.action = s.host.action := rfl
@[simp] theorem State.enqueue_host_answers (s : State) (r : HostRecord) : (s.enqueue r).host.answers = s.host.answers := rfl
@[simp] theorem State.enqueue_host_incoming (s : State) (r : HostRecord) : (s.enqueue r).host.incoming = s.host.incoming :=
  rfl
@[simp] theorem State.enqueue_host_sending (s : State) (r : HostRecord) : (s.enqueue r).host.sending = s.host.sending := rfl

/-! ### `setAction`: A beat is put into action (R146) -/

@[simp] theorem State.setAction_table (s : State) (a : BeatAction) : (s.setAction a).table = s.table := rfl
@[simp] theorem State.setAction_merge (s : State) (a : BeatAction) : (s.setAction a).merge = s.merge := rfl
@[simp] theorem State.setAction_damage (s : State) (a : BeatAction) : (s.setAction a).damage = s.damage := rfl
@[simp] theorem State.setAction_streamer (s : State) (a : BeatAction) : (s.setAction a).streamer = s.streamer := rfl
@[simp] theorem State.setAction_link (s : State) (a : BeatAction) : (s.setAction a).link = s.link := rfl
@[simp] theorem State.setAction_port (s : State) (a : BeatAction) : (s.setAction a).port = s.port := rfl
@[simp] theorem State.setAction_mgmt (s : State) (a : BeatAction) : (s.setAction a).mgmt = s.mgmt := rfl
@[simp] theorem State.setAction_events (s : State) (a : BeatAction) : (s.setAction a).events = s.events := rfl
@[simp] theorem State.setAction_store (s : State) (a : BeatAction) : (s.setAction a).store = s.store := rfl
@[simp] theorem State.setAction_freeCount (s : State) (a : BeatAction) : (s.setAction a).freeCount = s.freeCount := rfl
@[simp] theorem State.setAction_pending (s : State) (a : BeatAction) : (s.setAction a).pending = s.pending := rfl
@[simp] theorem State.setAction_host_state (s : State) (a : BeatAction) : (s.setAction a).host.state = s.host.state := rfl
@[simp] theorem State.setAction_host_requests (s : State) (a : BeatAction) : (s.setAction a).host.requests = s.host.requests :=
  rfl
@[simp] theorem State.setAction_host_action (s : State) (a : BeatAction) : (s.setAction a).host.action = some a := rfl
@[simp] theorem State.setAction_host_answers (s : State) (a : BeatAction) : (s.setAction a).host.answers = s.host.answers :=
  rfl
@[simp] theorem State.setAction_host_incoming (s : State) (a : BeatAction) : (s.setAction a).host.incoming = s.host.incoming :=
  rfl
@[simp] theorem State.setAction_host_sending (s : State) (a : BeatAction) : (s.setAction a).host.sending = s.host.sending :=
  rfl

/-! ### `finishBeat`: A beat is done (R146) -/

@[simp] theorem State.finishBeat_table (s : State) (o : BeatOutcome) : (s.finishBeat o).table = s.table := rfl
@[simp] theorem State.finishBeat_merge (s : State) (o : BeatOutcome) : (s.finishBeat o).merge = s.merge := rfl
@[simp] theorem State.finishBeat_damage (s : State) (o : BeatOutcome) : (s.finishBeat o).damage = s.damage := rfl
@[simp] theorem State.finishBeat_streamer (s : State) (o : BeatOutcome) : (s.finishBeat o).streamer = s.streamer := rfl
@[simp] theorem State.finishBeat_link (s : State) (o : BeatOutcome) : (s.finishBeat o).link = s.link := rfl
@[simp] theorem State.finishBeat_port (s : State) (o : BeatOutcome) : (s.finishBeat o).port = s.port := rfl
@[simp] theorem State.finishBeat_mgmt (s : State) (o : BeatOutcome) : (s.finishBeat o).mgmt = s.mgmt := rfl
@[simp] theorem State.finishBeat_events (s : State) (o : BeatOutcome) : (s.finishBeat o).events = s.events := rfl
@[simp] theorem State.finishBeat_store (s : State) (o : BeatOutcome) : (s.finishBeat o).store = s.store := rfl
@[simp] theorem State.finishBeat_freeCount (s : State) (o : BeatOutcome) : (s.finishBeat o).freeCount = s.freeCount := rfl
@[simp] theorem State.finishBeat_pending (s : State) (o : BeatOutcome) : (s.finishBeat o).pending = s.pending := rfl
@[simp] theorem State.finishBeat_host_state (s : State) (o : BeatOutcome) : (s.finishBeat o).host.state = s.host.state := rfl
@[simp] theorem State.finishBeat_host_requests (s : State) (o : BeatOutcome) :
    (s.finishBeat o).host.requests = modifyFirst (fun r => !r.done) (fun r => { r with outcomes := r.outcomes ++ [o] }) s.host.requests := rfl
@[simp] theorem State.finishBeat_host_action (s : State) (o : BeatOutcome) : (s.finishBeat o).host.action = none := rfl
@[simp] theorem State.finishBeat_host_answers (s : State) (o : BeatOutcome) : (s.finishBeat o).host.answers = s.host.answers :=
  rfl
@[simp] theorem State.finishBeat_host_incoming (s : State) (o : BeatOutcome) :
    (s.finishBeat o).host.incoming = s.host.incoming := rfl
@[simp] theorem State.finishBeat_host_sending (s : State) (o : BeatOutcome) : (s.finishBeat o).host.sending = s.host.sending :=
  rfl

/-! ### `freePort`: The memory port becomes free (R127) -/

@[simp] theorem State.freePort_table (s : State) : (s.freePort).table = s.table := rfl
@[simp] theorem State.freePort_merge (s : State) : (s.freePort).merge = s.merge := rfl
@[simp] theorem State.freePort_damage (s : State) : (s.freePort).damage = s.damage := rfl
@[simp] theorem State.freePort_streamer (s : State) : (s.freePort).streamer = s.streamer := rfl
@[simp] theorem State.freePort_link (s : State) : (s.freePort).link = s.link := rfl
@[simp] theorem State.freePort_host (s : State) : (s.freePort).host = s.host := rfl
@[simp] theorem State.freePort_mgmt (s : State) : (s.freePort).mgmt = s.mgmt := rfl
@[simp] theorem State.freePort_events (s : State) : (s.freePort).events = s.events := rfl
@[simp] theorem State.freePort_store (s : State) : (s.freePort).store = s.store := rfl
@[simp] theorem State.freePort_freeCount (s : State) : (s.freePort).freeCount = s.freeCount := rfl
@[simp] theorem State.freePort_pending (s : State) : (s.freePort).pending = s.pending := rfl
@[simp] theorem State.freePort_port_access (s : State) : (s.freePort).port.access = none := rfl
@[simp] theorem State.freePort_port_memSize (s : State) : (s.freePort).port.memSize = s.port.memSize := rfl
@[simp] theorem State.freePort_port_waitLimit (s : State) : (s.freePort).port.waitLimit = s.port.waitLimit := rfl
@[simp] theorem State.freePort_port_streamWait (s : State) : (s.freePort).port.streamWait = s.port.streamWait := rfl

/-! ### `resetStreamWait`: The stream wait count is 0 (R136) -/

@[simp] theorem State.resetStreamWait_table (s : State) : (s.resetStreamWait).table = s.table := rfl
@[simp] theorem State.resetStreamWait_merge (s : State) : (s.resetStreamWait).merge = s.merge := rfl
@[simp] theorem State.resetStreamWait_damage (s : State) : (s.resetStreamWait).damage = s.damage := rfl
@[simp] theorem State.resetStreamWait_streamer (s : State) : (s.resetStreamWait).streamer = s.streamer := rfl
@[simp] theorem State.resetStreamWait_link (s : State) : (s.resetStreamWait).link = s.link := rfl
@[simp] theorem State.resetStreamWait_host (s : State) : (s.resetStreamWait).host = s.host := rfl
@[simp] theorem State.resetStreamWait_mgmt (s : State) : (s.resetStreamWait).mgmt = s.mgmt := rfl
@[simp] theorem State.resetStreamWait_events (s : State) : (s.resetStreamWait).events = s.events := rfl
@[simp] theorem State.resetStreamWait_store (s : State) : (s.resetStreamWait).store = s.store := rfl
@[simp] theorem State.resetStreamWait_freeCount (s : State) : (s.resetStreamWait).freeCount = s.freeCount := rfl
@[simp] theorem State.resetStreamWait_pending (s : State) : (s.resetStreamWait).pending = s.pending := rfl
@[simp] theorem State.resetStreamWait_port_access (s : State) : (s.resetStreamWait).port.access = s.port.access := rfl
@[simp] theorem State.resetStreamWait_port_memSize (s : State) : (s.resetStreamWait).port.memSize = s.port.memSize := rfl
@[simp] theorem State.resetStreamWait_port_waitLimit (s : State) : (s.resetStreamWait).port.waitLimit = s.port.waitLimit :=
  rfl
@[simp] theorem State.resetStreamWait_port_streamWait (s : State) : (s.resetStreamWait).port.streamWait = 0 := rfl

/-! ### `setTransfer`: The transfer on the management bus changes (R159) -/

@[simp] theorem State.setTransfer_table (s : State) (t : Option Transfer) : (s.setTransfer t).table = s.table := rfl
@[simp] theorem State.setTransfer_merge (s : State) (t : Option Transfer) : (s.setTransfer t).merge = s.merge := rfl
@[simp] theorem State.setTransfer_damage (s : State) (t : Option Transfer) : (s.setTransfer t).damage = s.damage := rfl
@[simp] theorem State.setTransfer_streamer (s : State) (t : Option Transfer) : (s.setTransfer t).streamer = s.streamer := rfl
@[simp] theorem State.setTransfer_link (s : State) (t : Option Transfer) : (s.setTransfer t).link = s.link := rfl
@[simp] theorem State.setTransfer_port (s : State) (t : Option Transfer) : (s.setTransfer t).port = s.port := rfl
@[simp] theorem State.setTransfer_host (s : State) (t : Option Transfer) : (s.setTransfer t).host = s.host := rfl
@[simp] theorem State.setTransfer_events (s : State) (t : Option Transfer) : (s.setTransfer t).events = s.events := rfl
@[simp] theorem State.setTransfer_store (s : State) (t : Option Transfer) : (s.setTransfer t).store = s.store := rfl
@[simp] theorem State.setTransfer_freeCount (s : State) (t : Option Transfer) : (s.setTransfer t).freeCount = s.freeCount := rfl
@[simp] theorem State.setTransfer_pending (s : State) (t : Option Transfer) : (s.setTransfer t).pending = s.pending := rfl
@[simp] theorem State.setTransfer_mgmt_asel (s : State) (t : Option Transfer) : (s.setTransfer t).mgmt.asel = s.mgmt.asel :=
  rfl
@[simp] theorem State.setTransfer_mgmt_response (s : State) (t : Option Transfer) :
    (s.setTransfer t).mgmt.response = s.mgmt.response := rfl
@[simp] theorem State.setTransfer_mgmt_slot (s : State) (t : Option Transfer) : (s.setTransfer t).mgmt.slot = s.mgmt.slot :=
  rfl
@[simp] theorem State.setTransfer_mgmt_arm (s : State) (t : Option Transfer) : (s.setTransfer t).mgmt.arm = s.mgmt.arm := rfl
@[simp] theorem State.setTransfer_mgmt_loadOutcome (s : State) (t : Option Transfer) :
    (s.setTransfer t).mgmt.loadOutcome = s.mgmt.loadOutcome := rfl
@[simp] theorem State.setTransfer_mgmt_transfer (s : State) (t : Option Transfer) : (s.setTransfer t).mgmt.transfer = t :=
  rfl

/-! ### `insertRect`: A rectangle is inserted into the damage list (R78) -/

@[simp] theorem State.insertRect_table (s : State) (w : Fin 8) (q : Rect) : (s.insertRect w q).table = s.table := rfl
@[simp] theorem State.insertRect_merge (s : State) (w : Fin 8) (q : Rect) : (s.insertRect w q).merge = s.merge := rfl
@[simp] theorem State.insertRect_streamer (s : State) (w : Fin 8) (q : Rect) : (s.insertRect w q).streamer = s.streamer := rfl
@[simp] theorem State.insertRect_link (s : State) (w : Fin 8) (q : Rect) : (s.insertRect w q).link = s.link := rfl
@[simp] theorem State.insertRect_port (s : State) (w : Fin 8) (q : Rect) : (s.insertRect w q).port = s.port := rfl
@[simp] theorem State.insertRect_host (s : State) (w : Fin 8) (q : Rect) : (s.insertRect w q).host = s.host := rfl
@[simp] theorem State.insertRect_mgmt (s : State) (w : Fin 8) (q : Rect) : (s.insertRect w q).mgmt = s.mgmt := rfl
@[simp] theorem State.insertRect_events (s : State) (w : Fin 8) (q : Rect) : (s.insertRect w q).events = s.events := rfl
@[simp] theorem State.insertRect_store (s : State) (w : Fin 8) (q : Rect) : (s.insertRect w q).store = s.store := rfl
@[simp] theorem State.insertRect_freeCount (s : State) (w : Fin 8) (q : Rect) : (s.insertRect w q).freeCount = s.freeCount := rfl
@[simp] theorem State.insertRect_pending (s : State) (w : Fin 8) (q : Rect) : (s.insertRect w q).pending = s.pending := rfl
@[simp] theorem State.insertRect_damage_records (s : State) (w : Fin 8) (q : Rect) :
    (s.insertRect w q).damage.records = (s.damage.insert w q).1.records := rfl
@[simp] theorem State.insertRect_damage_nextTouch (s : State) (w : Fin 8) (q : Rect) :
    (s.insertRect w q).damage.nextTouch = (s.damage.insert w q).1.nextTouch := rfl

/-! ### `setIncoming`: The WRITE transfer under way changes (R142) -/

@[simp] theorem State.setIncoming_table (s : State) (i : Option Incoming) : (s.setIncoming i).table = s.table := rfl
@[simp] theorem State.setIncoming_merge (s : State) (i : Option Incoming) : (s.setIncoming i).merge = s.merge := rfl
@[simp] theorem State.setIncoming_damage (s : State) (i : Option Incoming) : (s.setIncoming i).damage = s.damage := rfl
@[simp] theorem State.setIncoming_streamer (s : State) (i : Option Incoming) : (s.setIncoming i).streamer = s.streamer := rfl
@[simp] theorem State.setIncoming_link (s : State) (i : Option Incoming) : (s.setIncoming i).link = s.link := rfl
@[simp] theorem State.setIncoming_port (s : State) (i : Option Incoming) : (s.setIncoming i).port = s.port := rfl
@[simp] theorem State.setIncoming_mgmt (s : State) (i : Option Incoming) : (s.setIncoming i).mgmt = s.mgmt := rfl
@[simp] theorem State.setIncoming_events (s : State) (i : Option Incoming) : (s.setIncoming i).events = s.events := rfl
@[simp] theorem State.setIncoming_store (s : State) (i : Option Incoming) : (s.setIncoming i).store = s.store := rfl
@[simp] theorem State.setIncoming_freeCount (s : State) (i : Option Incoming) : (s.setIncoming i).freeCount = s.freeCount := rfl
@[simp] theorem State.setIncoming_pending (s : State) (i : Option Incoming) : (s.setIncoming i).pending = s.pending := rfl
@[simp] theorem State.setIncoming_host_state (s : State) (i : Option Incoming) : (s.setIncoming i).host.state = s.host.state :=
  rfl
@[simp] theorem State.setIncoming_host_requests (s : State) (i : Option Incoming) :
    (s.setIncoming i).host.requests = s.host.requests := rfl
@[simp] theorem State.setIncoming_host_action (s : State) (i : Option Incoming) :
    (s.setIncoming i).host.action = s.host.action := rfl
@[simp] theorem State.setIncoming_host_answers (s : State) (i : Option Incoming) :
    (s.setIncoming i).host.answers = s.host.answers := rfl
@[simp] theorem State.setIncoming_host_incoming (s : State) (i : Option Incoming) : (s.setIncoming i).host.incoming = i :=
  rfl
@[simp] theorem State.setIncoming_host_sending (s : State) (i : Option Incoming) :
    (s.setIncoming i).host.sending = s.host.sending := rfl

/-! ### `setSending`: The answer going out changes (R143) -/

@[simp] theorem State.setSending_table (s : State) (o : Option Nat) : (s.setSending o).table = s.table := rfl
@[simp] theorem State.setSending_merge (s : State) (o : Option Nat) : (s.setSending o).merge = s.merge := rfl
@[simp] theorem State.setSending_damage (s : State) (o : Option Nat) : (s.setSending o).damage = s.damage := rfl
@[simp] theorem State.setSending_streamer (s : State) (o : Option Nat) : (s.setSending o).streamer = s.streamer := rfl
@[simp] theorem State.setSending_link (s : State) (o : Option Nat) : (s.setSending o).link = s.link := rfl
@[simp] theorem State.setSending_port (s : State) (o : Option Nat) : (s.setSending o).port = s.port := rfl
@[simp] theorem State.setSending_mgmt (s : State) (o : Option Nat) : (s.setSending o).mgmt = s.mgmt := rfl
@[simp] theorem State.setSending_events (s : State) (o : Option Nat) : (s.setSending o).events = s.events := rfl
@[simp] theorem State.setSending_store (s : State) (o : Option Nat) : (s.setSending o).store = s.store := rfl
@[simp] theorem State.setSending_freeCount (s : State) (o : Option Nat) : (s.setSending o).freeCount = s.freeCount := rfl
@[simp] theorem State.setSending_pending (s : State) (o : Option Nat) : (s.setSending o).pending = s.pending := rfl
@[simp] theorem State.setSending_host_state (s : State) (o : Option Nat) : (s.setSending o).host.state = s.host.state := rfl
@[simp] theorem State.setSending_host_requests (s : State) (o : Option Nat) :
    (s.setSending o).host.requests = s.host.requests := rfl
@[simp] theorem State.setSending_host_action (s : State) (o : Option Nat) : (s.setSending o).host.action = s.host.action :=
  rfl
@[simp] theorem State.setSending_host_answers (s : State) (o : Option Nat) : (s.setSending o).host.answers = s.host.answers :=
  rfl
@[simp] theorem State.setSending_host_incoming (s : State) (o : Option Nat) :
    (s.setSending o).host.incoming = s.host.incoming := rfl
@[simp] theorem State.setSending_host_sending (s : State) (o : Option Nat) : (s.setSending o).host.sending = o := rfl

/-! ### `fetchAnswer`: The fetch answer fills the drain entry (R58) -/

@[simp] theorem State.fetchAnswer_table (s : State) (w : Word) : (s.fetchAnswer w).table = s.table := rfl
@[simp] theorem State.fetchAnswer_damage (s : State) (w : Word) : (s.fetchAnswer w).damage = s.damage := rfl
@[simp] theorem State.fetchAnswer_streamer (s : State) (w : Word) : (s.fetchAnswer w).streamer = s.streamer := rfl
@[simp] theorem State.fetchAnswer_link (s : State) (w : Word) : (s.fetchAnswer w).link = s.link := rfl
@[simp] theorem State.fetchAnswer_port (s : State) (w : Word) : (s.fetchAnswer w).port = s.port := rfl
@[simp] theorem State.fetchAnswer_host (s : State) (w : Word) : (s.fetchAnswer w).host = s.host := rfl
@[simp] theorem State.fetchAnswer_mgmt (s : State) (w : Word) : (s.fetchAnswer w).mgmt = s.mgmt := rfl
@[simp] theorem State.fetchAnswer_events (s : State) (w : Word) : (s.fetchAnswer w).events = s.events := rfl
@[simp] theorem State.fetchAnswer_store (s : State) (w : Word) : (s.fetchAnswer w).store = s.store := rfl
@[simp] theorem State.fetchAnswer_freeCount (s : State) (w : Word) : (s.fetchAnswer w).freeCount = s.freeCount := rfl
@[simp] theorem State.fetchAnswer_pending (s : State) (w : Word) : (s.fetchAnswer w).pending = s.pending := rfl
@[simp] theorem State.fetchAnswer_merge_entries (s : State) (w : Word) :
    (s.fetchAnswer w).merge.entries = modifyFirst Entry.draining (fun e => e.fetchAnswer w) s.merge.entries := rfl
@[simp] theorem State.fetchAnswer_merge_highWater (s : State) (w : Word) :
    (s.fetchAnswer w).merge.highWater = s.merge.highWater := rfl
@[simp] theorem State.fetchAnswer_merge_linger (s : State) (w : Word) : (s.fetchAnswer w).merge.linger = s.merge.linger :=
  rfl

/-! ### `endLongOp`: a long operation ends (R163) -/

@[simp] theorem State.endLongOp_table (s : State) (c : Byte) (r : Result) : (s.endLongOp c r).table = s.table := rfl
@[simp] theorem State.endLongOp_merge (s : State) (c : Byte) (r : Result) : (s.endLongOp c r).merge = s.merge := rfl
@[simp] theorem State.endLongOp_damage (s : State) (c : Byte) (r : Result) : (s.endLongOp c r).damage = s.damage := rfl
@[simp] theorem State.endLongOp_streamer (s : State) (c : Byte) (r : Result) : (s.endLongOp c r).streamer = s.streamer := rfl
@[simp] theorem State.endLongOp_link (s : State) (c : Byte) (r : Result) : (s.endLongOp c r).link = s.link := rfl
@[simp] theorem State.endLongOp_port (s : State) (c : Byte) (r : Result) : (s.endLongOp c r).port = s.port := rfl
@[simp] theorem State.endLongOp_host (s : State) (c : Byte) (r : Result) : (s.endLongOp c r).host = s.host := rfl
@[simp] theorem State.endLongOp_store (s : State) (c : Byte) (r : Result) : (s.endLongOp c r).store = s.store := rfl
@[simp] theorem State.endLongOp_freeCount (s : State) (c : Byte) (r : Result) : (s.endLongOp c r).freeCount = s.freeCount := rfl
@[simp] theorem State.endLongOp_pending (s : State) (c : Byte) (r : Result) : (s.endLongOp c r).pending = s.pending := rfl
@[simp] theorem State.endLongOp_events (s : State) (c : Byte) (r : Result) : (s.endLongOp c r).events = s.events.post (.opDone c r) := rfl
@[simp] theorem State.endLongOp_mgmt_asel (s : State) (c : Byte) (r : Result) : (s.endLongOp c r).mgmt.asel = s.mgmt.asel := rfl
@[simp] theorem State.endLongOp_mgmt_response (s : State) (c : Byte) (r : Result) : (s.endLongOp c r).mgmt.response = s.mgmt.response := rfl
@[simp] theorem State.endLongOp_mgmt_slot (s : State) (c : Byte) (r : Result) : (s.endLongOp c r).mgmt.slot = none := rfl
@[simp] theorem State.endLongOp_mgmt_arm (s : State) (c : Byte) (r : Result) : (s.endLongOp c r).mgmt.arm = s.mgmt.arm := rfl
@[simp] theorem State.endLongOp_mgmt_loadOutcome (s : State) (c : Byte) (r : Result) : (s.endLongOp c r).mgmt.loadOutcome = s.mgmt.loadOutcome := rfl
@[simp] theorem State.endLongOp_mgmt_transfer (s : State) (c : Byte) (r : Result) : (s.endLongOp c r).mgmt.transfer = s.mgmt.transfer := rfl

/-! ### What the conditions of `Flags.lean` read -/

@[simp] theorem State.post_window (s : State) (e : Event) (k : Fin 8) :
    (s.post e).window k = s.window k := (rfl)
@[simp] theorem State.post_startingUp (s : State) (e : Event) :
    (s.post e).startingUp = s.startingUp := (rfl)
@[simp] theorem State.post_resetOrLoad (s : State) (e : Event) :
    (s.post e).resetOrLoad = s.resetOrLoad := (rfl)
@[simp] theorem State.post_storeBusy (s : State) (e : Event) :
    (s.post e).storeBusy = s.storeBusy := (rfl)
@[simp] theorem State.post_heldState (s : State) (e : Event) (k : Fin 4) :
    (s.post e).heldState k = s.heldState k := (rfl)
@[simp] theorem State.post_loadApplying (s : State) (e : Event) :
    (s.post e).loadApplying = s.loadApplying := (rfl)
@[simp] theorem State.post_urgent (s : State) (e : Event) :
    (s.post e).urgent = s.urgent := (rfl)
@[simp] theorem State.post_waitsForRoom (s : State) (e : Event) :
    (s.post e).waitsForRoom = s.waitsForRoom := (rfl)
@[simp] theorem State.post_regionOf (s : State) (e : Event) (k : Fin 8) :
    (s.post e).regionOf k = s.regionOf k := (rfl)
@[simp] theorem State.post_haccept (s : State) (e : Event) :
    (s.post e).haccept = s.haccept := (rfl)
@[simp] theorem State.post_marksNew (s : State) (e : Event) (c : Creator) :
    (s.post e).marksNew c = s.marksNew c := (rfl)
@[simp] theorem State.postTogether_window (s : State) (es : List Event) (k : Fin 8) :
    (s.postTogether es).window k = s.window k := (rfl)
@[simp] theorem State.postTogether_startingUp (s : State) (es : List Event) :
    (s.postTogether es).startingUp = s.startingUp := (rfl)
@[simp] theorem State.postTogether_resetOrLoad (s : State) (es : List Event) :
    (s.postTogether es).resetOrLoad = s.resetOrLoad := (rfl)
@[simp] theorem State.postTogether_storeBusy (s : State) (es : List Event) :
    (s.postTogether es).storeBusy = s.storeBusy := (rfl)
@[simp] theorem State.postTogether_heldState (s : State) (es : List Event) (k : Fin 4) :
    (s.postTogether es).heldState k = s.heldState k := (rfl)
@[simp] theorem State.postTogether_loadApplying (s : State) (es : List Event) :
    (s.postTogether es).loadApplying = s.loadApplying := (rfl)
@[simp] theorem State.postTogether_urgent (s : State) (es : List Event) :
    (s.postTogether es).urgent = s.urgent := (rfl)
@[simp] theorem State.postTogether_waitsForRoom (s : State) (es : List Event) :
    (s.postTogether es).waitsForRoom = s.waitsForRoom := (rfl)
@[simp] theorem State.postTogether_regionOf (s : State) (es : List Event) (k : Fin 8) :
    (s.postTogether es).regionOf k = s.regionOf k := (rfl)
@[simp] theorem State.postTogether_haccept (s : State) (es : List Event) :
    (s.postTogether es).haccept = s.haccept := (rfl)
@[simp] theorem State.postTogether_marksNew (s : State) (es : List Event) (c : Creator) :
    (s.postTogether es).marksNew c = s.marksNew c := (rfl)
@[simp] theorem State.setWindow_startingUp (s : State) (n : Fin 8) (w : Window) :
    (s.setWindow n w).startingUp = s.startingUp := (rfl)
@[simp] theorem State.setWindow_resetOrLoad (s : State) (n : Fin 8) (w : Window) :
    (s.setWindow n w).resetOrLoad = s.resetOrLoad := (rfl)
@[simp] theorem State.setWindow_storeBusy (s : State) (n : Fin 8) (w : Window) :
    (s.setWindow n w).storeBusy = s.storeBusy := (rfl)
@[simp] theorem State.setWindow_heldState (s : State) (n : Fin 8) (w : Window) (k : Fin 4) :
    (s.setWindow n w).heldState k = s.heldState k := (rfl)
@[simp] theorem State.setWindow_loadApplying (s : State) (n : Fin 8) (w : Window) :
    (s.setWindow n w).loadApplying = s.loadApplying := (rfl)
@[simp] theorem State.setWindow_urgent (s : State) (n : Fin 8) (w : Window) :
    (s.setWindow n w).urgent = s.urgent := (rfl)
@[simp] theorem State.setWindow_waitsForRoom (s : State) (n : Fin 8) (w : Window) :
    (s.setWindow n w).waitsForRoom = s.waitsForRoom := (rfl)
@[simp] theorem State.setWindow_regionOf (s : State) (n : Fin 8) (w : Window) (k : Fin 8) :
    (s.setWindow n w).regionOf k = s.regionOf k := (rfl)
@[simp] theorem State.setWindow_irq (s : State) (n : Fin 8) (w : Window) :
    (s.setWindow n w).irq = s.irq := (rfl)
@[simp] theorem State.setWindow_haccept (s : State) (n : Fin 8) (w : Window) :
    (s.setWindow n w).haccept = s.haccept := (rfl)
@[simp] theorem State.setWindow_settings (s : State) (n : Fin 8) (w : Window) :
    (s.setWindow n w).settings = s.settings := (rfl)
@[simp] theorem State.answer_window (s : State) (r : Result) (d : List Byte) (k : Fin 8) :
    (s.answer r d).window k = s.window k := (rfl)
@[simp] theorem State.answer_startingUp (s : State) (r : Result) (d : List Byte) :
    (s.answer r d).startingUp = s.startingUp := (rfl)
@[simp] theorem State.answer_resetOrLoad (s : State) (r : Result) (d : List Byte) :
    (s.answer r d).resetOrLoad = s.resetOrLoad := (rfl)
@[simp] theorem State.answer_storeBusy (s : State) (r : Result) (d : List Byte) :
    (s.answer r d).storeBusy = s.storeBusy := (rfl)
@[simp] theorem State.answer_heldState (s : State) (r : Result) (d : List Byte) (k : Fin 4) :
    (s.answer r d).heldState k = s.heldState k := (rfl)
@[simp] theorem State.answer_loadApplying (s : State) (r : Result) (d : List Byte) :
    (s.answer r d).loadApplying = s.loadApplying := (rfl)
@[simp] theorem State.answer_urgent (s : State) (r : Result) (d : List Byte) :
    (s.answer r d).urgent = s.urgent := (rfl)
@[simp] theorem State.answer_waitsForRoom (s : State) (r : Result) (d : List Byte) :
    (s.answer r d).waitsForRoom = s.waitsForRoom := (rfl)
@[simp] theorem State.answer_regionOf (s : State) (r : Result) (d : List Byte) (k : Fin 8) :
    (s.answer r d).regionOf k = s.regionOf k := (rfl)
@[simp] theorem State.answer_irq (s : State) (r : Result) (d : List Byte) :
    (s.answer r d).irq = s.irq := (rfl)
@[simp] theorem State.answer_haccept (s : State) (r : Result) (d : List Byte) :
    (s.answer r d).haccept = s.haccept := (rfl)
@[simp] theorem State.answer_marksNew (s : State) (r : Result) (d : List Byte) (c : Creator) :
    (s.answer r d).marksNew c = s.marksNew c := (rfl)
@[simp] theorem State.answer_settings (s : State) (r : Result) (d : List Byte) :
    (s.answer r d).settings = s.settings := (rfl)
@[simp] theorem State.reply_window (s : State) (d : List Byte) (k : Fin 8) :
    (s.reply d).window k = s.window k := (rfl)
@[simp] theorem State.reply_startingUp (s : State) (d : List Byte) :
    (s.reply d).startingUp = s.startingUp := (rfl)
@[simp] theorem State.reply_resetOrLoad (s : State) (d : List Byte) :
    (s.reply d).resetOrLoad = s.resetOrLoad := (rfl)
@[simp] theorem State.reply_storeBusy (s : State) (d : List Byte) :
    (s.reply d).storeBusy = s.storeBusy := (rfl)
@[simp] theorem State.reply_heldState (s : State) (d : List Byte) (k : Fin 4) :
    (s.reply d).heldState k = s.heldState k := (rfl)
@[simp] theorem State.reply_loadApplying (s : State) (d : List Byte) :
    (s.reply d).loadApplying = s.loadApplying := (rfl)
@[simp] theorem State.reply_urgent (s : State) (d : List Byte) :
    (s.reply d).urgent = s.urgent := (rfl)
@[simp] theorem State.reply_waitsForRoom (s : State) (d : List Byte) :
    (s.reply d).waitsForRoom = s.waitsForRoom := (rfl)
@[simp] theorem State.reply_regionOf (s : State) (d : List Byte) (k : Fin 8) :
    (s.reply d).regionOf k = s.regionOf k := (rfl)
@[simp] theorem State.reply_irq (s : State) (d : List Byte) :
    (s.reply d).irq = s.irq := (rfl)
@[simp] theorem State.reply_haccept (s : State) (d : List Byte) :
    (s.reply d).haccept = s.haccept := (rfl)
@[simp] theorem State.reply_marksNew (s : State) (d : List Byte) (c : Creator) :
    (s.reply d).marksNew c = s.marksNew c := (rfl)
@[simp] theorem State.reply_settings (s : State) (d : List Byte) :
    (s.reply d).settings = s.settings := (rfl)
@[simp] theorem State.setSlot_window (s : State) (o : Option LongOp) (k : Fin 8) :
    (s.setSlot o).window k = s.window k := (rfl)
@[simp] theorem State.setSlot_startingUp (s : State) (o : Option LongOp) :
    (s.setSlot o).startingUp = s.startingUp := (rfl)
@[simp] theorem State.setSlot_heldState (s : State) (o : Option LongOp) (k : Fin 4) :
    (s.setSlot o).heldState k = s.heldState k := (rfl)
@[simp] theorem State.setSlot_loadApplying (s : State) (o : Option LongOp) :
    (s.setSlot o).loadApplying = s.loadApplying := (rfl)
@[simp] theorem State.setSlot_waitsForRoom (s : State) (o : Option LongOp) :
    (s.setSlot o).waitsForRoom = s.waitsForRoom := (rfl)
@[simp] theorem State.setSlot_regionOf (s : State) (o : Option LongOp) (k : Fin 8) :
    (s.setSlot o).regionOf k = s.regionOf k := (rfl)
@[simp] theorem State.setSlot_irq (s : State) (o : Option LongOp) :
    (s.setSlot o).irq = s.irq := (rfl)
@[simp] theorem State.setSlot_haccept (s : State) (o : Option LongOp) :
    (s.setSlot o).haccept = s.haccept := (rfl)
@[simp] theorem State.setSlot_marksNew (s : State) (o : Option LongOp) (c : Creator) :
    (s.setSlot o).marksNew c = s.marksNew c := (rfl)
@[simp] theorem State.setSlot_settings (s : State) (o : Option LongOp) :
    (s.setSlot o).settings = s.settings := (rfl)
@[simp] theorem State.setArm_window (s : State) (a : Option (Fin 4)) (k : Fin 8) :
    (s.setArm a).window k = s.window k := (rfl)
@[simp] theorem State.setArm_startingUp (s : State) (a : Option (Fin 4)) :
    (s.setArm a).startingUp = s.startingUp := (rfl)
@[simp] theorem State.setArm_resetOrLoad (s : State) (a : Option (Fin 4)) :
    (s.setArm a).resetOrLoad = s.resetOrLoad := (rfl)
@[simp] theorem State.setArm_storeBusy (s : State) (a : Option (Fin 4)) :
    (s.setArm a).storeBusy = s.storeBusy := (rfl)
@[simp] theorem State.setArm_heldState (s : State) (a : Option (Fin 4)) (k : Fin 4) :
    (s.setArm a).heldState k = s.heldState k := (rfl)
@[simp] theorem State.setArm_loadApplying (s : State) (a : Option (Fin 4)) :
    (s.setArm a).loadApplying = s.loadApplying := (rfl)
@[simp] theorem State.setArm_urgent (s : State) (a : Option (Fin 4)) :
    (s.setArm a).urgent = s.urgent := (rfl)
@[simp] theorem State.setArm_waitsForRoom (s : State) (a : Option (Fin 4)) :
    (s.setArm a).waitsForRoom = s.waitsForRoom := (rfl)
@[simp] theorem State.setArm_regionOf (s : State) (a : Option (Fin 4)) (k : Fin 8) :
    (s.setArm a).regionOf k = s.regionOf k := (rfl)
@[simp] theorem State.setArm_irq (s : State) (a : Option (Fin 4)) :
    (s.setArm a).irq = s.irq := (rfl)
@[simp] theorem State.setArm_haccept (s : State) (a : Option (Fin 4)) :
    (s.setArm a).haccept = s.haccept := (rfl)
@[simp] theorem State.setArm_marksNew (s : State) (a : Option (Fin 4)) (c : Creator) :
    (s.setArm a).marksNew c = s.marksNew c := (rfl)
@[simp] theorem State.setArm_settings (s : State) (a : Option (Fin 4)) :
    (s.setArm a).settings = s.settings := (rfl)
@[simp] theorem State.setPort_window (s : State) (p : PortState) (k : Fin 8) :
    (s.setPort p).window k = s.window k := (rfl)
@[simp] theorem State.setPort_startingUp (s : State) (p : PortState) :
    (s.setPort p).startingUp = s.startingUp := (rfl)
@[simp] theorem State.setPort_resetOrLoad (s : State) (p : PortState) :
    (s.setPort p).resetOrLoad = s.resetOrLoad := (rfl)
@[simp] theorem State.setPort_storeBusy (s : State) (p : PortState) :
    (s.setPort p).storeBusy = s.storeBusy := (rfl)
@[simp] theorem State.setPort_heldState (s : State) (p : PortState) (k : Fin 4) :
    (s.setPort p).heldState k = s.heldState k := (rfl)
@[simp] theorem State.setPort_loadApplying (s : State) (p : PortState) :
    (s.setPort p).loadApplying = s.loadApplying := (rfl)
@[simp] theorem State.setPort_urgent (s : State) (p : PortState) :
    (s.setPort p).urgent = s.urgent := (rfl)
@[simp] theorem State.setPort_waitsForRoom (s : State) (p : PortState) :
    (s.setPort p).waitsForRoom = s.waitsForRoom := (rfl)
@[simp] theorem State.setPort_regionOf (s : State) (p : PortState) (k : Fin 8) :
    (s.setPort p).regionOf k = s.regionOf k := (rfl)
@[simp] theorem State.setPort_irq (s : State) (p : PortState) :
    (s.setPort p).irq = s.irq := (rfl)
@[simp] theorem State.setPort_marksNew (s : State) (p : PortState) (c : Creator) :
    (s.setPort p).marksNew c = s.marksNew c := (rfl)
@[simp] theorem State.setPort_settings (s : State) (p : PortState) :
    (s.setPort p).settings = s.settings := (rfl)
@[simp] theorem State.setLoad_window (s : State) (l : Option Load) (k : Fin 8) :
    (s.setLoad l).window k = s.window k := (rfl)
@[simp] theorem State.setLoad_resetOrLoad (s : State) (l : Option Load) :
    (s.setLoad l).resetOrLoad = s.resetOrLoad := (rfl)
@[simp] theorem State.setLoad_storeBusy (s : State) (l : Option Load) :
    (s.setLoad l).storeBusy = s.storeBusy := (rfl)
@[simp] theorem State.setLoad_heldState (s : State) (l : Option Load) (k : Fin 4) :
    (s.setLoad l).heldState k = s.heldState k := (rfl)
@[simp] theorem State.setLoad_urgent (s : State) (l : Option Load) :
    (s.setLoad l).urgent = s.urgent := (rfl)
@[simp] theorem State.setLoad_waitsForRoom (s : State) (l : Option Load) :
    (s.setLoad l).waitsForRoom = s.waitsForRoom := (rfl)
@[simp] theorem State.setLoad_regionOf (s : State) (l : Option Load) (k : Fin 8) :
    (s.setLoad l).regionOf k = s.regionOf k := (rfl)
@[simp] theorem State.setLoad_irq (s : State) (l : Option Load) :
    (s.setLoad l).irq = s.irq := (rfl)
@[simp] theorem State.setLoad_haccept (s : State) (l : Option Load) :
    (s.setLoad l).haccept = s.haccept := (rfl)
@[simp] theorem State.setLoad_marksNew (s : State) (l : Option Load) (c : Creator) :
    (s.setLoad l).marksNew c = s.marksNew c := (rfl)
@[simp] theorem State.setLoad_settings (s : State) (l : Option Load) :
    (s.setLoad l).settings = s.settings := (rfl)
@[simp] theorem State.markSlot_window (s : State) (n : Fin 4) (m : Nat) (h : SlotState) (k : Fin 8) :
    (s.markSlot n m h).window k = s.window k := (rfl)
@[simp] theorem State.markSlot_startingUp (s : State) (n : Fin 4) (m : Nat) (h : SlotState) :
    (s.markSlot n m h).startingUp = s.startingUp := (rfl)
@[simp] theorem State.markSlot_resetOrLoad (s : State) (n : Fin 4) (m : Nat) (h : SlotState) :
    (s.markSlot n m h).resetOrLoad = s.resetOrLoad := (rfl)
@[simp] theorem State.markSlot_storeBusy (s : State) (n : Fin 4) (m : Nat) (h : SlotState) :
    (s.markSlot n m h).storeBusy = s.storeBusy := (rfl)
@[simp] theorem State.markSlot_loadApplying (s : State) (n : Fin 4) (m : Nat) (h : SlotState) :
    (s.markSlot n m h).loadApplying = s.loadApplying := (rfl)
@[simp] theorem State.markSlot_urgent (s : State) (n : Fin 4) (m : Nat) (h : SlotState) :
    (s.markSlot n m h).urgent = s.urgent := (rfl)
@[simp] theorem State.markSlot_waitsForRoom (s : State) (n : Fin 4) (m : Nat) (h : SlotState) :
    (s.markSlot n m h).waitsForRoom = s.waitsForRoom := (rfl)
@[simp] theorem State.markSlot_regionOf (s : State) (n : Fin 4) (m : Nat) (h : SlotState) (k : Fin 8) :
    (s.markSlot n m h).regionOf k = s.regionOf k := (rfl)
@[simp] theorem State.markSlot_irq (s : State) (n : Fin 4) (m : Nat) (h : SlotState) :
    (s.markSlot n m h).irq = s.irq := (rfl)
@[simp] theorem State.markSlot_haccept (s : State) (n : Fin 4) (m : Nat) (h : SlotState) :
    (s.markSlot n m h).haccept = s.haccept := (rfl)
@[simp] theorem State.markSlot_marksNew (s : State) (n : Fin 4) (m : Nat) (h : SlotState) (c : Creator) :
    (s.markSlot n m h).marksNew c = s.marksNew c := (rfl)
@[simp] theorem State.markSlot_settings (s : State) (n : Fin 4) (m : Nat) (h : SlotState) :
    (s.markSlot n m h).settings = s.settings := (rfl)
@[simp] theorem State.enqueue_window (s : State) (r : HostRecord) (k : Fin 8) :
    (s.enqueue r).window k = s.window k := (rfl)
@[simp] theorem State.enqueue_startingUp (s : State) (r : HostRecord) :
    (s.enqueue r).startingUp = s.startingUp := (rfl)
@[simp] theorem State.enqueue_resetOrLoad (s : State) (r : HostRecord) :
    (s.enqueue r).resetOrLoad = s.resetOrLoad := (rfl)
@[simp] theorem State.enqueue_storeBusy (s : State) (r : HostRecord) :
    (s.enqueue r).storeBusy = s.storeBusy := (rfl)
@[simp] theorem State.enqueue_heldState (s : State) (r : HostRecord) (k : Fin 4) :
    (s.enqueue r).heldState k = s.heldState k := (rfl)
@[simp] theorem State.enqueue_loadApplying (s : State) (r : HostRecord) :
    (s.enqueue r).loadApplying = s.loadApplying := (rfl)
@[simp] theorem State.enqueue_urgent (s : State) (r : HostRecord) :
    (s.enqueue r).urgent = s.urgent := (rfl)
@[simp] theorem State.enqueue_waitsForRoom (s : State) (r : HostRecord) :
    (s.enqueue r).waitsForRoom = s.waitsForRoom := (rfl)
@[simp] theorem State.enqueue_regionOf (s : State) (r : HostRecord) (k : Fin 8) :
    (s.enqueue r).regionOf k = s.regionOf k := (rfl)
@[simp] theorem State.enqueue_irq (s : State) (r : HostRecord) :
    (s.enqueue r).irq = s.irq := (rfl)
@[simp] theorem State.enqueue_marksNew (s : State) (r : HostRecord) (c : Creator) :
    (s.enqueue r).marksNew c = s.marksNew c := (rfl)
@[simp] theorem State.enqueue_settings (s : State) (r : HostRecord) :
    (s.enqueue r).settings = s.settings := (rfl)
@[simp] theorem State.setAction_window (s : State) (a : BeatAction) (k : Fin 8) :
    (s.setAction a).window k = s.window k := (rfl)
@[simp] theorem State.setAction_startingUp (s : State) (a : BeatAction) :
    (s.setAction a).startingUp = s.startingUp := (rfl)
@[simp] theorem State.setAction_resetOrLoad (s : State) (a : BeatAction) :
    (s.setAction a).resetOrLoad = s.resetOrLoad := (rfl)
@[simp] theorem State.setAction_storeBusy (s : State) (a : BeatAction) :
    (s.setAction a).storeBusy = s.storeBusy := (rfl)
@[simp] theorem State.setAction_heldState (s : State) (a : BeatAction) (k : Fin 4) :
    (s.setAction a).heldState k = s.heldState k := (rfl)
@[simp] theorem State.setAction_loadApplying (s : State) (a : BeatAction) :
    (s.setAction a).loadApplying = s.loadApplying := (rfl)
@[simp] theorem State.setAction_regionOf (s : State) (a : BeatAction) (k : Fin 8) :
    (s.setAction a).regionOf k = s.regionOf k := (rfl)
@[simp] theorem State.setAction_irq (s : State) (a : BeatAction) :
    (s.setAction a).irq = s.irq := (rfl)
@[simp] theorem State.setAction_haccept (s : State) (a : BeatAction) :
    (s.setAction a).haccept = s.haccept := (rfl)
@[simp] theorem State.setAction_marksNew (s : State) (a : BeatAction) (c : Creator) :
    (s.setAction a).marksNew c = s.marksNew c := (rfl)
@[simp] theorem State.setAction_settings (s : State) (a : BeatAction) :
    (s.setAction a).settings = s.settings := (rfl)
@[simp] theorem State.finishBeat_window (s : State) (o : BeatOutcome) (k : Fin 8) :
    (s.finishBeat o).window k = s.window k := (rfl)
@[simp] theorem State.finishBeat_startingUp (s : State) (o : BeatOutcome) :
    (s.finishBeat o).startingUp = s.startingUp := (rfl)
@[simp] theorem State.finishBeat_resetOrLoad (s : State) (o : BeatOutcome) :
    (s.finishBeat o).resetOrLoad = s.resetOrLoad := (rfl)
@[simp] theorem State.finishBeat_storeBusy (s : State) (o : BeatOutcome) :
    (s.finishBeat o).storeBusy = s.storeBusy := (rfl)
@[simp] theorem State.finishBeat_heldState (s : State) (o : BeatOutcome) (k : Fin 4) :
    (s.finishBeat o).heldState k = s.heldState k := (rfl)
@[simp] theorem State.finishBeat_loadApplying (s : State) (o : BeatOutcome) :
    (s.finishBeat o).loadApplying = s.loadApplying := (rfl)
@[simp] theorem State.finishBeat_regionOf (s : State) (o : BeatOutcome) (k : Fin 8) :
    (s.finishBeat o).regionOf k = s.regionOf k := (rfl)
@[simp] theorem State.finishBeat_irq (s : State) (o : BeatOutcome) :
    (s.finishBeat o).irq = s.irq := (rfl)
@[simp] theorem State.finishBeat_marksNew (s : State) (o : BeatOutcome) (c : Creator) :
    (s.finishBeat o).marksNew c = s.marksNew c := (rfl)
@[simp] theorem State.finishBeat_settings (s : State) (o : BeatOutcome) :
    (s.finishBeat o).settings = s.settings := (rfl)
@[simp] theorem State.freePort_window (s : State) (k : Fin 8) :
    (s.freePort).window k = s.window k := (rfl)
@[simp] theorem State.freePort_startingUp (s : State) :
    (s.freePort).startingUp = s.startingUp := (rfl)
@[simp] theorem State.freePort_resetOrLoad (s : State) :
    (s.freePort).resetOrLoad = s.resetOrLoad := (rfl)
@[simp] theorem State.freePort_storeBusy (s : State) :
    (s.freePort).storeBusy = s.storeBusy := (rfl)
@[simp] theorem State.freePort_heldState (s : State) (k : Fin 4) :
    (s.freePort).heldState k = s.heldState k := (rfl)
@[simp] theorem State.freePort_loadApplying (s : State) :
    (s.freePort).loadApplying = s.loadApplying := (rfl)
@[simp] theorem State.freePort_urgent (s : State) :
    (s.freePort).urgent = s.urgent := (rfl)
@[simp] theorem State.freePort_waitsForRoom (s : State) :
    (s.freePort).waitsForRoom = s.waitsForRoom := (rfl)
@[simp] theorem State.freePort_regionOf (s : State) (k : Fin 8) :
    (s.freePort).regionOf k = s.regionOf k := (rfl)
@[simp] theorem State.freePort_irq (s : State) :
    (s.freePort).irq = s.irq := (rfl)
@[simp] theorem State.freePort_haccept (s : State) :
    (s.freePort).haccept = s.haccept := (rfl)
@[simp] theorem State.freePort_marksNew (s : State) (c : Creator) :
    (s.freePort).marksNew c = s.marksNew c := (rfl)
@[simp] theorem State.freePort_settings (s : State) :
    (s.freePort).settings = s.settings := (rfl)
@[simp] theorem State.resetStreamWait_window (s : State) (k : Fin 8) :
    (s.resetStreamWait).window k = s.window k := (rfl)
@[simp] theorem State.resetStreamWait_startingUp (s : State) :
    (s.resetStreamWait).startingUp = s.startingUp := (rfl)
@[simp] theorem State.resetStreamWait_resetOrLoad (s : State) :
    (s.resetStreamWait).resetOrLoad = s.resetOrLoad := (rfl)
@[simp] theorem State.resetStreamWait_storeBusy (s : State) :
    (s.resetStreamWait).storeBusy = s.storeBusy := (rfl)
@[simp] theorem State.resetStreamWait_heldState (s : State) (k : Fin 4) :
    (s.resetStreamWait).heldState k = s.heldState k := (rfl)
@[simp] theorem State.resetStreamWait_loadApplying (s : State) :
    (s.resetStreamWait).loadApplying = s.loadApplying := (rfl)
@[simp] theorem State.resetStreamWait_urgent (s : State) :
    (s.resetStreamWait).urgent = s.urgent := (rfl)
@[simp] theorem State.resetStreamWait_waitsForRoom (s : State) :
    (s.resetStreamWait).waitsForRoom = s.waitsForRoom := (rfl)
@[simp] theorem State.resetStreamWait_regionOf (s : State) (k : Fin 8) :
    (s.resetStreamWait).regionOf k = s.regionOf k := (rfl)
@[simp] theorem State.resetStreamWait_irq (s : State) :
    (s.resetStreamWait).irq = s.irq := (rfl)
@[simp] theorem State.resetStreamWait_haccept (s : State) :
    (s.resetStreamWait).haccept = s.haccept := (rfl)
@[simp] theorem State.resetStreamWait_marksNew (s : State) (c : Creator) :
    (s.resetStreamWait).marksNew c = s.marksNew c := (rfl)
@[simp] theorem State.resetStreamWait_settings (s : State) :
    (s.resetStreamWait).settings = s.settings := (rfl)
@[simp] theorem State.setTransfer_window (s : State) (t : Option Transfer) (k : Fin 8) :
    (s.setTransfer t).window k = s.window k := (rfl)
@[simp] theorem State.setTransfer_startingUp (s : State) (t : Option Transfer) :
    (s.setTransfer t).startingUp = s.startingUp := (rfl)
@[simp] theorem State.setTransfer_resetOrLoad (s : State) (t : Option Transfer) :
    (s.setTransfer t).resetOrLoad = s.resetOrLoad := (rfl)
@[simp] theorem State.setTransfer_storeBusy (s : State) (t : Option Transfer) :
    (s.setTransfer t).storeBusy = s.storeBusy := (rfl)
@[simp] theorem State.setTransfer_heldState (s : State) (t : Option Transfer) (k : Fin 4) :
    (s.setTransfer t).heldState k = s.heldState k := (rfl)
@[simp] theorem State.setTransfer_loadApplying (s : State) (t : Option Transfer) :
    (s.setTransfer t).loadApplying = s.loadApplying := (rfl)
@[simp] theorem State.setTransfer_urgent (s : State) (t : Option Transfer) :
    (s.setTransfer t).urgent = s.urgent := (rfl)
@[simp] theorem State.setTransfer_waitsForRoom (s : State) (t : Option Transfer) :
    (s.setTransfer t).waitsForRoom = s.waitsForRoom := (rfl)
@[simp] theorem State.setTransfer_regionOf (s : State) (t : Option Transfer) (k : Fin 8) :
    (s.setTransfer t).regionOf k = s.regionOf k := (rfl)
@[simp] theorem State.setTransfer_irq (s : State) (t : Option Transfer) :
    (s.setTransfer t).irq = s.irq := (rfl)
@[simp] theorem State.setTransfer_haccept (s : State) (t : Option Transfer) :
    (s.setTransfer t).haccept = s.haccept := (rfl)
@[simp] theorem State.setTransfer_marksNew (s : State) (t : Option Transfer) (c : Creator) :
    (s.setTransfer t).marksNew c = s.marksNew c := (rfl)
@[simp] theorem State.setTransfer_settings (s : State) (t : Option Transfer) :
    (s.setTransfer t).settings = s.settings := (rfl)
@[simp] theorem State.insertRect_window (s : State) (w : Fin 8) (q : Rect) (k : Fin 8) :
    (s.insertRect w q).window k = s.window k := (rfl)
@[simp] theorem State.insertRect_startingUp (s : State) (w : Fin 8) (q : Rect) :
    (s.insertRect w q).startingUp = s.startingUp := (rfl)
@[simp] theorem State.insertRect_resetOrLoad (s : State) (w : Fin 8) (q : Rect) :
    (s.insertRect w q).resetOrLoad = s.resetOrLoad := (rfl)
@[simp] theorem State.insertRect_storeBusy (s : State) (w : Fin 8) (q : Rect) :
    (s.insertRect w q).storeBusy = s.storeBusy := (rfl)
@[simp] theorem State.insertRect_heldState (s : State) (w : Fin 8) (q : Rect) (k : Fin 4) :
    (s.insertRect w q).heldState k = s.heldState k := (rfl)
@[simp] theorem State.insertRect_loadApplying (s : State) (w : Fin 8) (q : Rect) :
    (s.insertRect w q).loadApplying = s.loadApplying := (rfl)
@[simp] theorem State.insertRect_urgent (s : State) (w : Fin 8) (q : Rect) :
    (s.insertRect w q).urgent = s.urgent := (rfl)
@[simp] theorem State.insertRect_waitsForRoom (s : State) (w : Fin 8) (q : Rect) :
    (s.insertRect w q).waitsForRoom = s.waitsForRoom := (rfl)
@[simp] theorem State.insertRect_regionOf (s : State) (w : Fin 8) (q : Rect) (k : Fin 8) :
    (s.insertRect w q).regionOf k = s.regionOf k := (rfl)
@[simp] theorem State.insertRect_irq (s : State) (w : Fin 8) (q : Rect) :
    (s.insertRect w q).irq = s.irq := (rfl)
@[simp] theorem State.insertRect_haccept (s : State) (w : Fin 8) (q : Rect) :
    (s.insertRect w q).haccept = s.haccept := (rfl)
@[simp] theorem State.insertRect_marksNew (s : State) (w : Fin 8) (q : Rect) (c : Creator) :
    (s.insertRect w q).marksNew c = s.marksNew c := (rfl)
@[simp] theorem State.insertRect_settings (s : State) (w : Fin 8) (q : Rect) :
    (s.insertRect w q).settings = s.settings := (rfl)
@[simp] theorem State.setIncoming_window (s : State) (i : Option Incoming) (k : Fin 8) :
    (s.setIncoming i).window k = s.window k := (rfl)
@[simp] theorem State.setIncoming_startingUp (s : State) (i : Option Incoming) :
    (s.setIncoming i).startingUp = s.startingUp := (rfl)
@[simp] theorem State.setIncoming_resetOrLoad (s : State) (i : Option Incoming) :
    (s.setIncoming i).resetOrLoad = s.resetOrLoad := (rfl)
@[simp] theorem State.setIncoming_storeBusy (s : State) (i : Option Incoming) :
    (s.setIncoming i).storeBusy = s.storeBusy := (rfl)
@[simp] theorem State.setIncoming_heldState (s : State) (i : Option Incoming) (k : Fin 4) :
    (s.setIncoming i).heldState k = s.heldState k := (rfl)
@[simp] theorem State.setIncoming_loadApplying (s : State) (i : Option Incoming) :
    (s.setIncoming i).loadApplying = s.loadApplying := (rfl)
@[simp] theorem State.setIncoming_urgent (s : State) (i : Option Incoming) :
    (s.setIncoming i).urgent = s.urgent := (rfl)
@[simp] theorem State.setIncoming_waitsForRoom (s : State) (i : Option Incoming) :
    (s.setIncoming i).waitsForRoom = s.waitsForRoom := (rfl)
@[simp] theorem State.setIncoming_regionOf (s : State) (i : Option Incoming) (k : Fin 8) :
    (s.setIncoming i).regionOf k = s.regionOf k := (rfl)
@[simp] theorem State.setIncoming_irq (s : State) (i : Option Incoming) :
    (s.setIncoming i).irq = s.irq := (rfl)
@[simp] theorem State.setIncoming_haccept (s : State) (i : Option Incoming) :
    (s.setIncoming i).haccept = s.haccept := (rfl)
@[simp] theorem State.setIncoming_marksNew (s : State) (i : Option Incoming) (c : Creator) :
    (s.setIncoming i).marksNew c = s.marksNew c := (rfl)
@[simp] theorem State.setIncoming_settings (s : State) (i : Option Incoming) :
    (s.setIncoming i).settings = s.settings := (rfl)
@[simp] theorem State.setSending_window (s : State) (o : Option Nat) (k : Fin 8) :
    (s.setSending o).window k = s.window k := (rfl)
@[simp] theorem State.setSending_startingUp (s : State) (o : Option Nat) :
    (s.setSending o).startingUp = s.startingUp := (rfl)
@[simp] theorem State.setSending_resetOrLoad (s : State) (o : Option Nat) :
    (s.setSending o).resetOrLoad = s.resetOrLoad := (rfl)
@[simp] theorem State.setSending_storeBusy (s : State) (o : Option Nat) :
    (s.setSending o).storeBusy = s.storeBusy := (rfl)
@[simp] theorem State.setSending_heldState (s : State) (o : Option Nat) (k : Fin 4) :
    (s.setSending o).heldState k = s.heldState k := (rfl)
@[simp] theorem State.setSending_loadApplying (s : State) (o : Option Nat) :
    (s.setSending o).loadApplying = s.loadApplying := (rfl)
@[simp] theorem State.setSending_urgent (s : State) (o : Option Nat) :
    (s.setSending o).urgent = s.urgent := (rfl)
@[simp] theorem State.setSending_waitsForRoom (s : State) (o : Option Nat) :
    (s.setSending o).waitsForRoom = s.waitsForRoom := (rfl)
@[simp] theorem State.setSending_regionOf (s : State) (o : Option Nat) (k : Fin 8) :
    (s.setSending o).regionOf k = s.regionOf k := (rfl)
@[simp] theorem State.setSending_irq (s : State) (o : Option Nat) :
    (s.setSending o).irq = s.irq := (rfl)
@[simp] theorem State.setSending_marksNew (s : State) (o : Option Nat) (c : Creator) :
    (s.setSending o).marksNew c = s.marksNew c := (rfl)
@[simp] theorem State.setSending_settings (s : State) (o : Option Nat) :
    (s.setSending o).settings = s.settings := (rfl)
@[simp] theorem State.fetchAnswer_window (s : State) (w : Word) (k : Fin 8) :
    (s.fetchAnswer w).window k = s.window k := (rfl)
@[simp] theorem State.fetchAnswer_startingUp (s : State) (w : Word) :
    (s.fetchAnswer w).startingUp = s.startingUp := (rfl)
@[simp] theorem State.fetchAnswer_resetOrLoad (s : State) (w : Word) :
    (s.fetchAnswer w).resetOrLoad = s.resetOrLoad := (rfl)
@[simp] theorem State.fetchAnswer_storeBusy (s : State) (w : Word) :
    (s.fetchAnswer w).storeBusy = s.storeBusy := (rfl)
@[simp] theorem State.fetchAnswer_heldState (s : State) (w : Word) (k : Fin 4) :
    (s.fetchAnswer w).heldState k = s.heldState k := (rfl)
@[simp] theorem State.fetchAnswer_loadApplying (s : State) (w : Word) :
    (s.fetchAnswer w).loadApplying = s.loadApplying := (rfl)
@[simp] theorem State.fetchAnswer_regionOf (s : State) (w : Word) (k : Fin 8) :
    (s.fetchAnswer w).regionOf k = s.regionOf k := (rfl)
@[simp] theorem State.fetchAnswer_irq (s : State) (w : Word) :
    (s.fetchAnswer w).irq = s.irq := (rfl)
@[simp] theorem State.fetchAnswer_haccept (s : State) (w : Word) :
    (s.fetchAnswer w).haccept = s.haccept := (rfl)
@[simp] theorem State.fetchAnswer_marksNew (s : State) (w : Word) (c : Creator) :
    (s.fetchAnswer w).marksNew c = s.marksNew c := (rfl)

end Sys2Proof.Machine
end

