-- ==== Sys2Proof/Laws/Blocks.lean ====
section
/-!
SUPPORT. The shared operations on the queues, the damage list, the host port and the arbiter: what each can do, said once.
-/

namespace Sys2Proof.Machine

/-! ### `modifyFirst` -/

section Lists
variable {α : Type} {p : α → Bool} {f : α → α}

@[simp] theorem modifyFirst_length (l : List α) : (modifyFirst p f l).length = l.length := by
  induction l with
  | nil => rfl
  | cons a l ih => simp only [modifyFirst]; split <;> simp [ih]

/-- With no element to change the list stays. -/
theorem modifyFirst_none {l : List α} (h : l.find? p = none) : modifyFirst p f l = l := by
  induction l with
  | nil => rfl
  | cons a l ih =>
    simp only [List.find?_cons] at h
    split at h
    · simp at h
    · rename_i ha
      simp [modifyFirst, ha, ih h]

/-- Only the first element that `p` selects is changed, so the change may be given by its value alone. -/
theorem modifyFirst_const {l : List α} {a : α} (h : l.find? p = some a) :
    modifyFirst p f l = modifyFirst p (fun _ => f a) l := by
  induction l with
  | nil => rfl
  | cons b l ih =>
    simp only [List.find?_cons] at h
    split at h
    · rename_i hb
      obtain rfl := Option.some.inj h
      simp [modifyFirst, hb]
    · rename_i hb
      simp [modifyFirst, hb, ih h]

/-- The list splits around the changed element. -/
theorem modifyFirst_split {l : List α} {a : α} (h : l.find? p = some a) :
    ∃ before after, l = before ++ a :: after ∧ (∀ b ∈ before, p b = false) ∧ p a = true
      ∧ modifyFirst p f l = before ++ f a :: after := by
  induction l with
  | nil => simp at h
  | cons b l ih =>
    simp only [List.find?_cons] at h
    split at h
    · rename_i hb
      obtain rfl := Option.some.inj h
      exact ⟨[], l, rfl, by simp, hb, by simp [modifyFirst, hb]⟩
    · rename_i hb
      obtain ⟨before, after, h1, h2, h3, h4⟩ := ih h
      exact ⟨b :: before, after, by simp [h1], by simp [hb]; exact h2, h3, by simp [modifyFirst, hb, h4]⟩

/-- A field that the change keeps is kept along the list. -/
theorem modifyFirst_map {β : Type} (g : α → β) (h : ∀ a, g (f a) = g a) (l : List α) :
    (modifyFirst p f l).map g = l.map g := by
  induction l with
  | nil => rfl
  | cons a l ih => simp only [modifyFirst]; split <;> simp [h, ih]

/-- Every element of the changed list is an old one or a changed old one. -/
theorem mem_modifyFirst {l : List α} {b : α} (h : b ∈ modifyFirst p f l) : b ∈ l ∨ ∃ a ∈ l, p a = true ∧ b = f a := by
  induction l with
  | nil => simp [modifyFirst] at h
  | cons a l ih =>
    simp only [modifyFirst] at h
    split at h
    · rcases List.mem_cons.mp h with rfl | h
      · exact .inr ⟨a, List.mem_cons_self, by assumption, rfl⟩
      · exact .inl (List.mem_cons_of_mem _ h)
    · rcases List.mem_cons.mp h with rfl | h
      · exact .inl List.mem_cons_self
      · rcases ih h with h | ⟨c, hc, h1, h2⟩
        · exact .inl (List.mem_cons_of_mem _ h)
        · exact .inr ⟨c, List.mem_cons_of_mem _ hc, h1, h2⟩

end Lists

/-! ### Events (R183 to R185) -/

theorem markLast_append (l : List EventRecord) (r : EventRecord) :
    markLast (l ++ [r]) = l ++ [{ r with lost := true }] := by
  induction l with
  | nil => rfl
  | cons a l ih =>
    cases l with
    | nil => rfl
    | cons b l => simpa [markLast] using ih

@[simp] theorem markLast_length (l : List EventRecord) : (markLast l).length = l.length := by
  rcases List.eq_nil_or_concat l with rfl | ⟨l, r, rfl⟩
  · rfl
  · simp [List.concat_eq_append, markLast_append]

@[simp] theorem EventQueue.post_counter (q : EventQueue) (e : Event) : (q.post e).counter = q.counter + 1 := by
  unfold EventQueue.post; split <;> rfl

@[simp] theorem EventQueue.post_mask (q : EventQueue) (e : Event) : (q.post e).mask = q.mask := by
  unfold EventQueue.post; split <;> rfl

/-- An event is appended while there is room (R184). -/
theorem EventQueue.post_room {q : EventQueue} {e : Event} (h : q.records.length < 16) :
    (q.post e).records = q.records ++ [⟨q.counter, e, false⟩] := by
  simp [EventQueue.post, h]

/-- A full queue discards the event and marks its newest record (R185). -/
theorem EventQueue.post_full {q : EventQueue} {e : Event} (h : 16 ≤ q.records.length) :
    (q.post e).records = markLast q.records := by
  simp [EventQueue.post, Nat.not_lt.mpr h]

/-- The events of one moment are taken in some order (R186). -/
theorem arrange_perm (k : Nat) (es : List Event) : (arrange k es).Perm es := by
  fun_induction arrange k es with
  | case1 => exact .refl _
  | case2 => exact .refl _
  | case3 k e f rest ih =>
    have hl : (arrange (k + 1) (f :: rest)).length = rest.length + 1 := by simpa using ih.length_eq
    exact (List.perm_insertIdx _ _ (by rw [hl]; exact Nat.le_of_lt_succ (Nat.mod_lt _ (by omega)))).trans (ih.cons e)

/-- Posting several events one after another raises the counter by their number (R183). -/
theorem EventQueue.posts_counter (q : EventQueue) (es : List Event) :
    (es.foldl EventQueue.post q).counter = q.counter + BitVec.ofNat 8 es.length := by
  induction es generalizing q with
  | nil => simp
  | cons e es ih =>
    rw [List.foldl_cons, ih, EventQueue.post_counter, List.length_cons, Nat.add_comm es.length 1, BitVec.ofNat_add]
    exact BitVec.add_assoc ..

/-- Posting several events one after another keeps the mask. -/
theorem EventQueue.posts_mask (q : EventQueue) (es : List Event) : (es.foldl EventQueue.post q).mask = q.mask := by
  induction es generalizing q with
  | nil => rfl
  | cons e es ih => rw [List.foldl_cons, ih, EventQueue.post_mask]

/-- Posting several events one after another changes the event queue alone. -/
theorem State.posts_eq (s : State) (es : List Event) :
    es.foldl State.post s = { s with events := es.foldl EventQueue.post s.events } := by
  induction es generalizing s with
  | nil => rfl
  | cons e es ih => rw [List.foldl_cons, ih]; rfl

/-- All that `postTogether` can do (R186): the events are posted one after another in some order, and a free value is used for
each event but one. -/
theorem State.postTogether_order (s : State) (es : List Event) :
    ∃ order : List Event, order.Perm es
      ∧ s.postTogether es = { order.foldl State.post s with freeCount := s.freeCount + (es.length - 1) } :=
  ⟨_, arrange_perm s.freeCount es, by rw [State.posts_eq]; rfl⟩

@[simp] theorem State.postTogether_nil (s : State) : s.postTogether [] = s := rfl

/-- One event alone is posted, and no free value used. -/
@[simp] theorem State.postTogether_one (s : State) (e : Event) : s.postTogether [e] = s.post e := rfl

/-- The counter rises by the number of events, in whatever order they are taken (R183). -/
theorem State.postTogether_counter (s : State) (es : List Event) :
    (s.postTogether es).events.counter = s.events.counter + BitVec.ofNat 8 es.length := by
  show ((arrange s.freeCount es).foldl EventQueue.post s.events).counter = _
  rw [EventQueue.posts_counter, (arrange_perm s.freeCount es).length_eq]

@[simp] theorem State.postTogether_mask (s : State) (es : List Event) :
    (s.postTogether es).events.mask = s.events.mask := EventQueue.posts_mask ..

/-! ### Merge queue (R49 to R51) -/

/-- One word of a taken beat joins its entry or makes a new one at the end (R50, R51). -/
theorem MergeQueue.takeWord_cases (c : Creator) (mark granted : Bool) (lanes : List LaneWrite) (q : MergeQueue) (a : Nat) :
    (∃ e, q.entry? a = some e ∧ q.takeWord c mark granted lanes a = { q with
        entries := modifyFirst (fun e => e.word == a) (fun e => e.mergeLanes (lanesFor lanes a) granted) q.entries })
    ∨ (q.entry? a = none ∧ q.takeWord c mark granted lanes a = { q with
        entries := q.entries ++ [Entry.create a (lanesFor lanes a) c mark] }) := by
  unfold MergeQueue.takeWord
  cases h : q.entry? a with
  | none => exact .inr ⟨rfl, rfl⟩
  | some e => exact .inl ⟨e, rfl, rfl⟩

@[simp] theorem MergeQueue.takeWord_settings (c : Creator) (mark granted : Bool) (lanes : List LaneWrite)
    (q : MergeQueue) (a : Nat) :
    (q.takeWord c mark granted lanes a).highWater = q.highWater ∧ (q.takeWord c mark granted lanes a).linger = q.linger := by
  rcases MergeQueue.takeWord_cases c mark granted lanes q a with ⟨e, _, h⟩ | ⟨_, h⟩ <;> simp [h]

@[simp] theorem Entry.mergeLanes_word (e : Entry) (l : Lanes) (g : Bool) : (e.mergeLanes l g).word = e.word := rfl

@[simp] theorem Entry.mergeLanes_creator (e : Entry) (l : Lanes) (g : Bool) : (e.mergeLanes l g).creator = e.creator := rfl

@[simp] theorem Entry.mergeLanes_lanes (e : Entry) (l : Lanes) (g : Bool) :
    (e.mergeLanes l g).lanes = e.lanes.merge l := rfl

@[simp] theorem Entry.chosen_word (e : Entry) : e.chosen.word = e.word := rfl

@[simp] theorem Entry.chosen_lanes (e : Entry) : e.chosen.lanes = e.lanes := rfl

/-- A chosen entry is the drain entry (R55, R56). -/
@[simp] theorem Entry.chosen_draining (e : Entry) : e.chosen.draining = true := by
  unfold Entry.draining Entry.chosen
  split <;> rfl

/-- Lane n after a merge: the new lane where it is valid, else the old one (R51). -/
theorem Lanes.merge_get (old new : Lanes) (n : Fin 8) : (old.merge new)[n] = (new[n]).or old[n] := by
  simp only [Lanes.merge, Fin.getElem_fin, Vector.getElem_zipWith]
  cases new[n.val] <;> rfl

/-- A word address put into a list of them (R50). -/
theorem mem_insertWord {a b : Nat} {l : List Nat} : b ∈ insertWord a l ↔ b = a ∨ b ∈ l := by
  induction l with
  | nil => simp [insertWord]
  | cons c rest ih =>
    unfold insertWord
    split
    · simp
    · split <;> simp_all [or_left_comm]

/-- It keeps the list strictly rising (R50). -/
theorem insertWord_sorted {a : Nat} {l : List Nat} (h : l.Pairwise (· < ·)) : (insertWord a l).Pairwise (· < ·) := by
  induction l with
  | nil => simp [insertWord]
  | cons c rest ih =>
    rw [List.pairwise_cons] at h
    unfold insertWord
    split
    · exact .cons (by intro x hx; rcases List.mem_cons.1 hx with rfl | hx <;> [assumption; (have := h.1 x hx; omega)])
        (.cons h.1 h.2)
    · split
      · exact .cons h.1 h.2
      · refine .cons (fun x hx => ?_) (ih h.2)
        rcases mem_insertWord.1 hx with rfl | hx <;> [omega; exact h.1 x hx]

/-- The distinct addresses of a list are in increasing order and those of the list (R50). -/
theorem distinctWords_spec (l : List Nat) : (distinctWords l).Pairwise (· < ·) ∧ ∀ a, a ∈ distinctWords l ↔ a ∈ l := by
  induction l with
  | nil => simp [distinctWords]
  | cons b rest ih =>
    exact ⟨insertWord_sorted ih.1, fun a => by rw [show distinctWords (b :: rest) = insertWord b (distinctWords rest) from rfl,
      mem_insertWord, ih.2, List.mem_cons]⟩

/-- The words of a beat are named once, in increasing order, and are those of its lanes (R48, R50). -/
theorem beatWords_spec (lanes : List LaneWrite) :
    (beatWords lanes).Pairwise (· < ·) ∧ ∀ a, a ∈ beatWords lanes ↔ ∃ l ∈ lanes, l.word = a := by
  simpa [beatWords] using distinctWords_spec (lanes.map LaneWrite.word)

/-- Over entries of distinct words, a change to the entry of a word is a map (R47). -/
theorem modifyFirst_word {l : List Entry} {a : Nat} {f : Entry → Entry} (h : (l.map Entry.word).Nodup) :
    modifyFirst (fun e => e.word == a) f l = l.map fun e => if e.word = a then f e else e := by
  induction l with
  | nil => rfl
  | cons e rest ih =>
    rw [List.map_cons, List.nodup_cons] at h
    unfold modifyFirst
    by_cases he : e.word = a
    · subst he
      have : rest.map (fun f' => if f'.word = e.word then f f' else f') = rest := by
        conv => rhs; rw [← List.map_id rest]
        refine List.map_congr_left fun x hx => if_neg fun hw : x.word = e.word => h.1 (hw ▸ List.mem_map_of_mem hx)
      simp [this]
    · simp [he, ih h.2]

/-- A word has no entry when no entry is of that word (R47). -/
theorem MergeQueue.entry?_isNone (q : MergeQueue) (a : Nat) : (q.entry? a).isNone = true ↔ a ∉ q.entries.map Entry.word := by
  simp [MergeQueue.entry?]

/-- A lane set taken whole (R50, R51): over entries of distinct words, each entry of one of its words takes the word's lanes in
its place, and each other word gets a new entry at the end, in increasing order of address. -/
theorem MergeQueue.takeSet_eq {q : MergeQueue} (h : (q.entries.map Entry.word).Nodup) (c : Creator) (mark granted : Bool)
    (lanes : List LaneWrite) :
    q.takeSet c mark granted lanes = { q with
      entries := q.entries.map (fun e => if e.word ∈ beatWords lanes then e.mergeLanes (lanesFor lanes e.word) granted else e)
        ++ (q.newWords lanes).map (fun a => Entry.create a (lanesFor lanes a) c mark) } := by
  suffices ∀ (ws : List Nat) (q : MergeQueue), ws.Nodup → (q.entries.map Entry.word).Nodup →
      ws.foldl (MergeQueue.takeWord c mark granted lanes) q = { q with
        entries := q.entries.map (fun e => if e.word ∈ ws then e.mergeLanes (lanesFor lanes e.word) granted else e)
          ++ (ws.filter fun a => (q.entry? a).isNone).map (fun a => Entry.create a (lanesFor lanes a) c mark) } from
    this _ q ((beatWords_spec lanes).1.imp fun hlt => Nat.ne_of_lt hlt) h
  intro ws
  induction ws with
  | nil => intro q _ _; simp
  | cons a rest ih =>
    intro q hws hq
    rw [List.nodup_cons] at hws
    have new : ∀ l : List Entry, (a :: rest).filter (fun b => (q.entry? b).isNone) = (if (q.entry? a).isNone then [a] else [])
        ++ rest.filter (fun b => (q.entry? b).isNone) := by
      intro _; rw [List.filter_cons]; split <;> rfl
    rw [List.foldl_cons, new q.entries]
    rcases MergeQueue.takeWord_cases c mark granted lanes q a with ⟨e, he, ht⟩ | ⟨he, ht⟩
    · have hm : (q.entries.map fun e => if e.word = a then e.mergeLanes (lanesFor lanes a) granted else e).map Entry.word
          = q.entries.map Entry.word := by
        rw [List.map_map]; exact List.map_congr_left fun x _ => by simp only [Function.comp]; split <;> rfl
      rw [modifyFirst_word hq] at ht
      have hw : (q.takeWord c mark granted lanes a).entries.map Entry.word = q.entries.map Entry.word := by rw [ht]; exact hm
      have hn : ∀ b, ((q.takeWord c mark granted lanes a).entry? b).isNone = (q.entry? b).isNone := by
        intro b; rw [Bool.eq_iff_iff, MergeQueue.entry?_isNone, MergeQueue.entry?_isNone, hw]
      rw [ih _ hws.2 (by rw [hw]; exact hq)]
      simp only [hn]
      rw [ht]
      simp only [he, List.map_map, Option.isNone_some, if_false, List.nil_append, Bool.false_eq_true]
      congr 2
      refine List.map_congr_left fun x _ => ?_
      simp only [Function.comp, List.mem_cons]
      by_cases hx : x.word = a
      · simp [hx, hws.1]
      · simp [hx]
    · have hna : a ∉ q.entries.map Entry.word := (q.entry?_isNone a).1 (by simp [he])
      rw [ht, ih _ hws.2 (by simp [List.nodup_append, hq, Entry.create]; intro x hx hw; exact hna (hw ▸ List.mem_map_of_mem hx))]
      have hn : rest.filter (fun b => (MergeQueue.entry? { q with entries := q.entries ++ [Entry.create a (lanesFor lanes a) c mark] } b).isNone)
          = rest.filter (fun b => (q.entry? b).isNone) := by
        refine List.filter_congr fun b hb => ?_
        rw [Bool.eq_iff_iff, MergeQueue.entry?_isNone, MergeQueue.entry?_isNone]
        have : b ≠ a := fun hab => hws.1 (hab ▸ hb)
        simp [Entry.create, this]
      rw [hn]
      simp only [he, Option.isNone_none, if_true, List.map_append, List.map_cons, List.map_nil, List.append_assoc]
      congr 2
      · refine List.map_congr_left fun x hx => ?_
        have : x.word ≠ a := fun hw => hna (hw ▸ List.mem_map_of_mem hx)
        simp [this]
      · simp [Entry.create, hws.1]

/-! ### Damage list (R78 to R82) -/

/-- An insertion does one of five things (R78 to R82). -/
theorem DamageList.insert_cases (l : DamageList) (w : Fin 8) (q : Rect) :
    l.insert w q = (l, none)
    ∨ (∃ t, l.tail? w = some t ∧ t.rect.adjacent q = true ∧ l.insert w q = (l.grow t q, none))
    ∨ (l.records.length < 24 ∧ l.insert w q = (l.append w q, none))
    ∨ (2 ≤ (l.pendingOf w).length
        ∧ l.insert w q = (l.collapse w (boundingBox q (l.pendingOf w)), some w))
    ∨ l.insert w q
        = ((l.collapse l.busiest (boundingBoxOf (l.pendingOf l.busiest))).append w q, some l.busiest) := by
  unfold DamageList.insert
  split
  · exact .inl rfl
  · split
    · rename_i t ht
      rw [Option.filter_eq_some_iff] at ht
      exact .inr (.inl ⟨t, ht.1, ht.2, rfl⟩)
    · split
      · exact .inr (.inr (.inl ⟨by assumption, rfl⟩))
      · split
        · exact .inr (.inr (.inr (.inl ⟨by assumption, rfl⟩)))
        · exact .inr (.inr (.inr (.inr rfl)))

/-- Inserting damage changes the damage list, and the event queue only for a collapse (R83). -/
theorem State.insertDamage_eq (s : State) (w : Fin 8) (q : Rect) :
    s.insertDamage w q = { s with
      damage := (s.damage.insert w q).1
      events := match (s.damage.insert w q).2 with
        | none => s.events
        | some v => s.events.post (.damageCollapse v) } := by
  unfold State.insertDamage State.collapseEvent
  cases (s.damage.insert w q).2 <;> rfl

/-- Replacing records keeps the others in their order. -/
theorem replaceAll_filter (p : Record → Bool) (new : Record) (h : p new = true) (l : List Record) :
    (replaceAll p new l).filter (fun r => !p r) = l.filter fun r => !p r := by
  induction l with
  | nil => rfl
  | cons a l ih =>
    simp only [replaceAll]
    split
    · rename_i ha
      simp [h, ha, List.filter_filter]
    · rename_i ha
      simp [ha, ih]

/-! ### Arbiter (R132) -/

/-- A grant answers a request that is presented. -/
theorem State.grantChoice_cases {s : State} {g : Grant} (h : s.grantChoice = some g) :
    (∃ a, s.streamRequest? = some a ∧ g = ⟨.stream, a, none⟩)
    ∨ (∃ a, s.hostRequest? = some a ∧ g = ⟨.hostRead, a, none⟩)
    ∨ ∃ d, s.drainRequest? = some d ∧ g = ⟨.drain, d.1, d.2⟩ := by
  unfold State.grantChoice at h
  cases hs : s.streamRequest? <;> cases hh : s.hostRequest? <;> cases hd : s.drainRequest? <;>
    by_cases h8 : Config.streamGuard ≤ s.port.streamWait <;> cases hu : s.urgent <;>
    simp [hs, hh, hd, h8, hu] at h <;> simp [h]

end Sys2Proof.Machine
end

