-- ==== Sys2Proof/Laws/Streamer.lean ====
section
/-!
SUPPORT. The streamer's shared operations (R98 to R102, R110): for each, what it answers in each case, so that later proofs
unfold none of them.
-/

namespace Sys2Proof.Machine

variable {s : State}

/-! ### Taking a record -/

/-- A fresh attempt begins REGION at once when no ABORT is owed, and waits for the ABORT otherwise (R102, R110). -/
theorem State.takeRecord?_some {p : Record → Bool} {r : Record} (h : s.damage.records.find? p = some r) :
    s.takeRecord? p = some (s.withTaken p r) := by
  unfold State.takeRecord?
  rw [h]
  by_cases h0 : s.link.abortsOwed = 0 <;>
    simp [State.beginAttempt, State.startRegion, State.withTaken, Region.fresh, DamageList.take, State.regionValues?,
      State.window, h0]

theorem State.takeRecord?_none {p : Record → Bool} (h : s.damage.records.find? p = none) : s.takeRecord? p = none := by
  simp [State.takeRecord?, h]

/-- In IDLE with a PENDING record the first is taken (R98). -/
theorem State.takeIfIdle_taken {r : Record} (hs : s.streamer.state = .idle)
    (h : s.damage.records.find? Record.isPending = some r) : s.takeIfIdle = s.withTaken Record.isPending r := by
  simp [State.takeIfIdle, hs, State.takeRecord?_some h]

/-- Outside IDLE, and with no PENDING record, nothing is taken (R98). -/
theorem State.takeIfIdle_same (h : s.streamer.state ≠ .idle ∨ s.damage.records.find? Record.isPending = none) :
    s.takeIfIdle = s := by
  unfold State.takeIfIdle
  split
  · simp_all [State.takeRecord?_none]
  · rfl

/-- What the streamer takes does not depend on the event queue (R98). -/
theorem State.takeIfIdle_post (s : State) (e : Event) : (s.post e).takeIfIdle = s.takeIfIdle.post e := by
  by_cases hs : s.streamer.state = .idle
  · cases hr : s.damage.records.find? Record.isPending with
    | none => rw [State.takeIfIdle_same (.inr hr), State.takeIfIdle_same (s := s.post e) (.inr hr)]
    | some r => rw [State.takeIfIdle_taken hs hr, State.takeIfIdle_taken (s := s.post e) hs hr]; rfl
  · rw [State.takeIfIdle_same (.inl hs), State.takeIfIdle_same (s := s.post e) (.inl hs)]

/-- Damage inserted and taken in IDLE, its event posted before or after (R83, R98). -/
theorem State.insertDamage_takeIfIdle (s : State) (w : Fin 8) (q : Rect) :
    (s.insertDamage w q).takeIfIdle = (s.collapseEvent w q).foldl State.post (s.insertRect w q).takeIfIdle := by
  unfold State.insertDamage State.collapseEvent
  cases (s.damage.insert w q).2 with
  | none => rfl
  | some v => exact State.takeIfIdle_post ..

/-- A pass goes on with the first marked PENDING record (R99, R100). -/
theorem State.continuePass_taken {r : Record} (h : s.damage.records.find? Record.isMarked = some r) :
    s.continuePass = s.withTaken Record.isMarked r := by
  simp [State.continuePass, State.takeRecord?_some h]

/-- A pass with no marked PENDING record is over (R99, R100). -/
theorem State.continuePass_over (h : s.damage.records.find? Record.isMarked = none) :
    s.continuePass = { s with streamer := { s.streamer with passOpen := false, state := .waitSync } } := by
  simp [State.continuePass, State.takeRecord?_none h]

/-! ### The region end (R101) -/

theorem State.regionEnd_off (h : s.streamer.mode = .off) :
    s.regionEnd = { s with streamer := { s.streamer with region := none, answerTimer := none, state := .off } } := by
  simp [State.regionEnd, h]

theorem State.regionEnd_free (h : s.streamer.mode = .free) :
    s.regionEnd = State.takeIfIdle
      { s with streamer := { s.streamer with region := none, answerTimer := none, state := .idle } } := by
  simp [State.regionEnd, h]

theorem State.regionEnd_open (h : s.streamer.mode = .gated) (hp : s.streamer.passOpen = true) :
    s.regionEnd
      = State.continuePass { s with streamer := { s.streamer with region := none, answerTimer := none } } := by
  simp [State.regionEnd, h, hp]

theorem State.regionEnd_closed (h : s.streamer.mode = .gated) (hp : s.streamer.passOpen = false) :
    s.regionEnd
      = { s with streamer := { s.streamer with region := none, answerTimer := none, state := .waitSync } } := by
  simp [State.regionEnd, h, hp]

/-- The region end as the rules put it, case by case. -/
theorem State.regionEnd_eq_regionOver (s : State) : s.regionEnd = s.regionOver := by
  unfold State.regionOver
  cases h : s.streamer.mode with
  | off => exact State.regionEnd_off h
  | free =>
    rw [State.regionEnd_free h]
    cases hp : s.damage.records.find? Record.isPending with
    | none => exact State.takeIfIdle_same (.inr hp)
    | some r => exact State.takeIfIdle_taken (s := { s with
        streamer := { s.streamer with region := none, answerTimer := none, state := .idle } }) rfl hp
  | gated =>
    cases hp : s.streamer.passOpen with
    | false => simp [State.regionEnd_closed h hp]
    | true =>
      rw [State.regionEnd_open h hp]
      cases hm : s.damage.records.find? Record.isMarked with
      | none => exact State.continuePass_over hm
      | some r => exact State.continuePass_taken hm

/-! ### Answer failures (R107, R108) -/

/-- While retries remain the region is sent again (R107). -/
theorem State.answerFailure_resend {r : Region} {cause : LinkCause} (h : s.streamer.region = some r)
    (hr : s.streamer.retriesUsed < s.streamer.retries) :
    s.answerFailure cause = State.beginAttempt
      { s with streamer := { s.streamer with retriesUsed := s.streamer.retriesUsed + 1 } } r.window r.rect := by
  simp [State.answerFailure, h, hr]

/-- With no retry left the streamer stalls and LINK_FAIL is posted (R108). -/
theorem State.answerFailure_stall {r : Region} {cause : LinkCause} (h : s.streamer.region = some r)
    (hr : s.streamer.retries ≤ s.streamer.retriesUsed) :
    s.answerFailure cause = s.stall.post (.linkFail r.window r.rect cause) := by
  simp [State.answerFailure, h, Nat.not_lt.mpr hr]

/-! ### What these operations leave alone -/

/-- The operation changes no block but the damage list, the streamer and the link. -/
abbrev StreamerOnly (f : State → State) : Prop :=
  ∀ s, f s = { s with damage := (f s).damage, streamer := (f s).streamer, link := (f s).link }

theorem State.startRegion_only : StreamerOnly State.startRegion := by
  intro s
  unfold State.startRegion
  cases s.streamer.region with
  | none => rfl
  | some r => simp only; split <;> rfl

theorem State.takeIfIdle_only : StreamerOnly State.takeIfIdle := by
  intro s
  rcases hp : s.damage.records.find? Record.isPending with _ | r
  · rw [State.takeIfIdle_same (.inr hp)]
  · by_cases hs : s.streamer.state = .idle
    · rw [State.takeIfIdle_taken hs hp]; rfl
    · rw [State.takeIfIdle_same (.inl hs)]

theorem State.continuePass_only : StreamerOnly State.continuePass := by
  intro s
  rcases hp : s.damage.records.find? Record.isMarked with _ | r
  · rw [State.continuePass_over hp]
  · rw [State.continuePass_taken hp]; rfl

theorem State.regionEnd_only : StreamerOnly State.regionEnd := by
  intro s
  cases h : s.streamer.mode with
  | off => rw [State.regionEnd_off h]
  | free =>
    rw [State.regionEnd_free h]
    exact State.takeIfIdle_only
      { s with streamer := { s.streamer with region := none, answerTimer := none, state := .idle } }
  | gated =>
    cases hp : s.streamer.passOpen with
    | true =>
      rw [State.regionEnd_open h hp]
      exact State.continuePass_only { s with streamer := { s.streamer with region := none, answerTimer := none } }
    | false => rw [State.regionEnd_closed h hp]

end Sys2Proof.Machine
end

