-- ==== Sys2Proof/Laws/Settle.lean ====
section
/-!
SUPPORT. The drain choice (R55) and what comes about with it at the end of a command (R30, R66, R169): for each occupant
of the long-operation slot, what `settle` answers.
-/

namespace Sys2Proof.Machine

variable {s t : State}

/-! ### The drain choice -/

/-- While the drain slot is taken nothing is chosen (R55). -/
theorem State.chooseDrain_taken (h : s.merge.drain?.isSome = true) : s.chooseDrain = s := by
  simp [State.chooseDrain, h]

/-- The drain choice changes the entries alone. -/
theorem State.chooseDrain_only :
    s.chooseDrain = { s with merge := { s.merge with entries := s.chooseDrain.merge.entries } } := by
  unfold State.chooseDrain
  split <;> rfl

/-- A state with no open drain choice keeps it closed under a change that leaves the queue and its urgency alone. -/
theorem DrainChosen.of_same (h : DrainChosen s) (hm : t.merge = s.merge) (hu : t.urgent = s.urgent) : DrainChosen t := by
  have h1 := congrArg (fun u => u.merge.entries) h
  unfold DrainChosen State.chooseDrain at *
  rw [hm, hu]
  split
  · rfl
  · rename_i hd
    rw [if_neg hd] at h1
    simp only at h1 ⊢
    rw [h1, ← hm]

/-- An empty queue leaves nothing to choose. -/
theorem DrainChosen.of_empty (h : s.merge.entries = []) : DrainChosen s := by
  unfold DrainChosen State.chooseDrain
  simp only [h, modifyFirst]
  split
  · rfl
  · rw [← h]

/-! ### Ends of long operations -/

theorem State.flushEnd?_none (h : ∀ sel, s.mgmt.slot ≠ some (.flush sel [])) : s.flushEnd? = none := by
  unfold State.flushEnd?
  split <;> simp_all

theorem State.closeEnd?_none (h : ∀ n, s.mgmt.slot = some (.closeWindow n) → s.drainComplete n = false) :
    s.closeEnd? = none := by
  unfold State.closeEnd?
  split <;> simp_all

/-- Nothing ends while the slot holds no FLUSH and no close. -/
theorem State.longOpEnd?_none (hf : ∀ sel, s.mgmt.slot ≠ some (.flush sel []))
    (hc : ∀ n, s.mgmt.slot = some (.closeWindow n) → s.drainComplete n = false) : s.longOpEnd? = none := by
  simp [State.longOpEnd?, State.flushEnd?_none hf, State.closeEnd?_none hc]

theorem State.longOpEnd?_flush {sel : Option (Fin 8)} (h : s.mgmt.slot = some (.flush sel [])) :
    s.longOpEnd? = some (s.setSlot none, flushDone) := by
  simp [State.longOpEnd?, State.flushEnd?, h]

theorem State.longOpEnd?_close {n : Fin 8} (h : s.mgmt.slot = some (.closeWindow n)) (hd : s.drainComplete n = true) :
    s.longOpEnd? = some ((s.setWindow n .unused).setSlot none, closeDone) := by
  simp [State.longOpEnd?, State.flushEnd?, State.closeEnd?, h, hd]

theorem State.endPhase2_same (h : s.mgmt.slot = some (.softReset .phase2) → s.host.quiet = false) :
    s.endPhase2 = s := by
  unfold State.endPhase2
  split <;> simp_all

theorem State.endPhase2_ends (h : s.mgmt.slot = some (.softReset .phase2)) (hq : s.host.quiet = true) :
    s.endPhase2 = State.setSlot { s with merge := s.merge.mark fun _ => true } (some (.softReset .phase3)) := by
  simp [State.endPhase2, h, hq]

theorem State.endPhase3_same (h : s.mgmt.slot = some (.softReset .phase3) → s.merge.entries ≠ []) :
    s.endPhase3 = s := by
  unfold State.endPhase3
  split <;> simp_all

theorem State.endPhase3_ends (h : s.mgmt.slot = some (.softReset .phase3)) (hq : s.merge.entries = []) :
    s.endPhase3 = s.resetPhase4.resetPhase5.resetPhase6.resetPhase7 := by
  simp [State.endPhase3, h, hq]

/-! ### What a command settles, by the occupant of the slot -/

variable {es : List Event}

/-- Where no FLUSH or close ends and no phase does, only the events are posted and the drain choice made. -/
theorem State.settle_same (hf : ∀ sel, s.mgmt.slot ≠ some (.flush sel []))
    (hc : ∀ n, s.mgmt.slot = some (.closeWindow n) → s.drainComplete n = false)
    (h2 : s.mgmt.slot = some (.softReset .phase2) → s.host.quiet = false)
    (h3 : s.mgmt.slot = some (.softReset .phase3) → s.merge.entries ≠ []) :
    s.settle es = (s.postTogether es).chooseDrain := by
  unfold State.settle
  rw [State.longOpEnd?_none hf hc]
  simp only
  rw [State.endPhase2_same (by simpa using h2), State.endPhase3_same (by simpa using h3)]

/-- An empty slot leaves the events and the drain choice. -/
theorem State.settle_free (h : s.mgmt.slot = none) : s.settle es = (s.postTogether es).chooseDrain :=
  State.settle_same (by simp [h]) (by simp [h]) (by simp [h]) (by simp [h])

/-- A FLUSH whose wait set is not empty waits on (R66). -/
theorem State.settle_flush_waits {sel : Option (Fin 8)} {a : Nat} {ws : List Nat}
    (h : s.mgmt.slot = some (.flush sel (a :: ws))) : s.settle es = (s.postTogether es).chooseDrain :=
  State.settle_same (by simp [h]) (by simp [h]) (by simp [h]) (by simp [h])

/-- A FLUSH whose wait set is empty ends (R66). -/
theorem State.settle_flush_done {sel : Option (Fin 8)} (h : s.mgmt.slot = some (.flush sel [])) :
    s.settle es = ((s.setSlot none).postTogether (es ++ [flushDone])).chooseDrain := by
  simp [State.settle, State.longOpEnd?_flush h]

/-- A close whose drain is not complete waits on (R30). -/
theorem State.settle_close_waits {n : Fin 8} (h : s.mgmt.slot = some (.closeWindow n)) (hd : s.drainComplete n = false) :
    s.settle es = (s.postTogether es).chooseDrain :=
  State.settle_same (by simp [h]) (by simp_all) (by simp [h]) (by simp [h])

/-- A close whose drain is complete ends (R30). -/
theorem State.settle_close_done {n : Fin 8} (h : s.mgmt.slot = some (.closeWindow n)) (hd : s.drainComplete n = true) :
    s.settle es
      = (((s.setWindow n .unused).setSlot none).postTogether (es ++ [closeDone])).chooseDrain := by
  simp [State.settle, State.longOpEnd?_close h hd]

/-- Phase 2 of a SOFT_RESET waits while a beat is left to be done (R169). -/
theorem State.settle_phase2_waits (h : s.mgmt.slot = some (.softReset .phase2)) (hq : s.host.quiet = false) :
    s.settle es = (s.postTogether es).chooseDrain :=
  State.settle_same (by simp [h]) (by simp [h]) (by simp [hq]) (by simp [h])

/-- Phase 3 waits while the queue holds an entry (R169). -/
theorem State.settle_phase3_waits (h : s.mgmt.slot = some (.softReset .phase3)) (hq : s.merge.entries ≠ []) :
    s.settle es = (s.postTogether es).chooseDrain :=
  State.settle_same (by simp [h]) (by simp [h]) (by simp [h]) (by simp [hq])

/-- Phases 4 to 6 without a region in flight (R45, R95, R124). -/
theorem State.resetPhases_quiet (h : s.streamer.region = none) :
    s.resetPhase4.resetPhase5.resetPhase6.resetPhase7 = s.phase7Start := by
  simp [State.resetPhase4, State.abortToOff, h, State.resetPhase5, State.resetPhase6, State.resetPhase7,
    State.phase7Start, State.setSlot, State.setLoad, DamageList.atReset]

/-- Phases 4 to 6 with a region in flight, which is aborted (R110, R124). -/
theorem State.resetPhases_region (h : s.streamer.region.isSome = true) :
    s.resetPhase4.resetPhase5.resetPhase6.resetPhase7 = s.abortRegion.phase7Start := by
  simp [State.resetPhase4, State.abortToOff, h, State.resetPhase5, State.resetPhase6, State.resetPhase7,
    State.phase7Start, State.setSlot, State.setLoad, DamageList.atReset, State.abortRegion]

/-- Phase 3 as the slot shows it, tested and then the drain choice made (R169). -/
theorem State.endPhase3_goesOn (h : s.mgmt.slot = some (.softReset .phase3)) :
    s.endPhase3.chooseDrain = s.phase3GoesOn := by
  unfold State.phase3GoesOn
  by_cases he : s.merge.entries = []
  · rw [State.endPhase3_ends h he, if_pos he]
    cases hr : s.streamer.region with
    | none =>
      rw [State.resetPhases_quiet hr, if_neg (by simp)]
      exact DrainChosen.of_empty he
    | some r =>
      rw [State.resetPhases_region (by simp [hr]), if_pos (by simp)]
      exact DrainChosen.of_empty he
  · rw [State.endPhase3_same fun _ => he, if_neg he]

/-- What settles is what the specification lets follow at once, for every occupant of the slot (log 6). -/
theorem State.settle_eq_goesOn (s : State) (es : List Event) : s.settle es = s.goesOn es := by
  unfold State.goesOn
  rcases h : s.mgmt.slot with _ | (n | ⟨sel, _ | ⟨a, ws⟩⟩ | n | n | p)
  · exact State.settle_free h
  · by_cases hd : s.drainComplete n = true
    · rw [State.settle_close_done h hd]
      have : (s.merge.entries.any (fun e => e.creator == .window n) || s.host.writeBeatOf n) = false := by
        simpa [State.drainComplete, List.all_eq_true, List.any_eq_false] using hd
      simp only [this]
      rfl
    · rw [State.settle_close_waits h (by simpa using hd)]
      have : (s.merge.entries.any (fun e => e.creator == .window n) || s.host.writeBeatOf n) = true := by
        by_contra hn
        exact hd (by simpa [State.drainComplete, List.all_eq_true, List.any_eq_false] using hn)
      simp only [this, if_true]
  · exact State.settle_flush_done h
  · exact State.settle_flush_waits h
  · exact State.settle_same (by simp [h]) (by simp [h]) (by simp [h]) (by simp [h])
  · exact State.settle_same (by simp [h]) (by simp [h]) (by simp [h]) (by simp [h])
  · cases p with
    | phase2 =>
      by_cases hq : s.host.quiet = true
      · unfold State.settle
        rw [State.longOpEnd?_none (by simp [h]) (by simp [h])]
        simp only
        rw [State.endPhase2_ends (by simpa using h) (by simpa using hq), State.endPhase3_goesOn rfl]
        simp only [hq, if_true]
        rfl
      · rw [State.settle_phase2_waits h (by simpa using hq)]
        simp only [hq]
        rfl
    | phase3 =>
      unfold State.settle
      rw [State.longOpEnd?_none (by simp [h]) (by simp [h])]
      simp only
      rw [State.endPhase2_same (by simp [h]), State.endPhase3_goesOn (by simpa using h)]
    | phase1 | phase4 | phase5 | phase6 | phase7 =>
      exact State.settle_same (by simp [h]) (by simp [h]) (by simp [h]) (by simp [h])

/-! ### Removals -/

/-- What a taken beat's run inserts (R77, R151). -/
theorem State.runDamage?_eq_beatDamage (s : State) (run : Option (Carried × Rect)) : s.runDamage? run = s.beatDamage run := by
  rcases run with _ | ⟨d, r⟩
  · rfl
  · cases hw : s.window d.window <;> cases ht : d.values.tracking <;>
      simp [State.runDamage?, State.beatDamage, hw, ht, Window.active?, WindowValues.full]

/-- A lane set that arrives (R49 to R51, R77). -/
theorem State.arrive_eq_beatTaken (s : State) (c : Creator) (lanes : List LaneWrite) (run : Option (Carried × Rect)) :
    s.arrive c lanes run = s.beatTaken c lanes run := by
  have h : State.runDamage? { s with merge := s.merge.takeSet c (s.marksNew c) (s.port.serves .drain) lanes } run
      = s.beatDamage run := s.runDamage?_eq_beatDamage run
  unfold State.arrive State.beatTaken State.insertRun
  simp only [h]
  cases s.beatDamage run <;> rfl

/-- The event of a lane set that arrives (R83). -/
theorem State.runEvents_eq_beatEvents (s : State) (run : Option (Carried × Rect)) : s.runEvents run = s.beatEvents run := by
  unfold State.runEvents State.beatEvents
  rw [State.runDamage?_eq_beatDamage]
  rcases s.beatDamage run with _ | ⟨w, q⟩
  · rfl
  · unfold State.collapseEvent
    cases h : (s.damage.insert w q).2 <;> simp only [h] <;> rfl

/-- A removal takes the drain entry from the queue and its word from a wait set (R60, R62, R66). -/
theorem State.removeDrain_eq_withoutDrain {e : Entry} (h : s.merge.drain? = some e) :
    s.removeDrain = s.withoutDrain e.word := by
  unfold State.removeDrain State.withoutDrain
  rw [h]
  rcases hs : s.mgmt.slot with _ | (n | ⟨sel, ws⟩ | n | n | p) <;> simp [LongOp.dropWord]

/-- What a removal brings about (R30, R49, R60, R62, R66). -/
theorem State.afterRemoval_eq (s : State) (es : List Event) : s.afterRemoval es = s.removalGoesOn es := by
  unfold State.afterRemoval State.takeWaiting State.removalGoesOn
  rw [State.settle_eq_goesOn]
  rcases s.host.action with _ | (⟨c, l, r⟩ | ⟨c, w, a⟩)
  · simp
  · simp only [State.arrive_eq_beatTaken, State.runEvents_eq_beatEvents]
    split <;> simp
  · simp

end Sys2Proof.Machine
end

