-- ==== Sys2Proof/Laws/Frames.lean ====
section
/-!
SUPPORT. What every frame does before and after its command (R160, R165): the taking of a frame, the numbers its bytes name,
the common checks, and how the cleared arm passes through the shared operations.
-/

namespace Sys2Proof.Machine

/-! ### Taking a frame -/

/-- A frame taken outside the start-up load hands the arm to its command and clears it (R165). -/
theorem State.takeFrame_ready {s : State} (h : s.ready) (f : Option (Fin 4) → State → State) :
    s.takeFrame f = f s.mgmt.arm (s.setArm none) := by
  simp [State.takeFrame, h]

/-- No frame is taken while the start-up load runs (R180). -/
theorem State.takeFrame_startingUp {s : State} (h : s.startingUp = true) (f : Option (Fin 4) → State → State) :
    s.takeFrame f = s := by
  simp [State.takeFrame, h]

/-- An answer over the cleared arm is the reply to the frame. -/
@[simp] theorem State.setArm_answer (s : State) (r : Result) (d : List Byte) :
    (s.setArm none).answer r d = s.reply (byteOf r.code :: d) := rfl

/-! ### The numbers that bytes name -/

theorem windowNumber_eq_some {b : Byte} {n : Fin 8} : windowNumber b = some n ↔ b.toNat = n.val := by
  unfold windowNumber
  split
  · simp [Fin.ext_iff]
  · simp; omega

theorem windowNumber_eq_none {b : Byte} : windowNumber b = none ↔ 8 ≤ b.toNat := by
  unfold windowNumber; split <;> simp <;> omega

theorem slotNumber_eq_some {b : Byte} {n : Fin 4} : slotNumber b = some n ↔ b.toNat = n.val := by
  unfold slotNumber
  split
  · simp [Fin.ext_iff]
  · simp; omega

theorem slotNumber_eq_none {b : Byte} : slotNumber b = none ↔ 4 ≤ b.toNat := by
  unfold slotNumber; split <;> simp <;> omega

/-- The byte of a window number names that window. -/
@[simp] theorem windowNumber_byteOf (n : Fin 8) : windowNumber (byteOf n.val) = some n := by
  revert n; decide

@[simp] theorem slotNumber_byteOf (n : Fin 4) : slotNumber (byteOf n.val) = some n := by
  revert n; decide

/-! ### The common checks of R31 -/

theorem Window.active?_eq_some {w : Window} {v : WindowValues} : w.active? = some v ↔ w = .active v := by
  cases w <;> simp [Window.active?]

theorem Window.active?_eq_none {w : Window} : w.active? = none ↔ w = .unused ∨ ∃ v, w = .draining v := by
  cases w <;> simp [Window.active?]

/-- The checks pass exactly for a number of an ACTIVE window with no reset or load in flight (R31). -/
theorem State.activeTarget_ok {s : State} {b : Byte} {n : Fin 8} {v : WindowValues} :
    s.activeTarget b = .ok (n, v) ↔ b.toNat = n.val ∧ s.resetOrLoad = false ∧ s.window n = .active v := by
  unfold State.activeTarget
  split
  · rename_i h
    rw [windowNumber_eq_none] at h
    simp; omega
  · rename_i w h
    rw [windowNumber_eq_some] at h
    split
    · simp_all
    · split
      · rename_i hw
        simp only [reduceCtorEq, false_iff, not_and]
        intro h1 _ h3
        obtain rfl : w = n := Fin.ext (by omega)
        simp [h3, Window.active?] at hw
      · rename_i x hw
        rw [Window.active?_eq_some] at hw
        constructor
        · intro h1
          simp only [Except.ok.injEq, Prod.mk.injEq] at h1
          obtain ⟨rfl, rfl⟩ := h1
          exact ⟨h, by simpa using ‹¬ s.resetOrLoad = true›, hw⟩
        · rintro ⟨h1, _, h3⟩
          obtain rfl : w = n := Fin.ext (by omega)
          rw [hw] at h3
          simp_all

theorem State.activeTarget_badArg {s : State} {b : Byte} (h : 8 ≤ b.toNat) : s.activeTarget b = .error .badArg := by
  simp [State.activeTarget, windowNumber_eq_none.mpr h]

theorem State.activeTarget_busy {s : State} {b : Byte} (h : b.toNat < 8) (hr : s.resetOrLoad = true) :
    s.activeTarget b = .error .busy := by
  have : windowNumber b = some ⟨b.toNat, h⟩ := windowNumber_eq_some.mpr rfl
  simp [State.activeTarget, this, hr]

theorem State.activeTarget_badState {s : State} {b : Byte} {n : Fin 8} (h : b.toNat = n.val) (hr : s.resetOrLoad = false)
    (hw : s.window n = .unused ∨ ∃ v, s.window n = .draining v) : s.activeTarget b = .error .badState := by
  simp [State.activeTarget, windowNumber_eq_some.mpr h, hr, Window.active?_eq_none.mpr hw]

@[simp] theorem State.setArm_activeTarget (s : State) (a : Option (Fin 4)) (b : Byte) :
    (s.setArm a).activeTarget b = s.activeTarget b := rfl

@[simp] theorem State.setArm_openTarget (s : State) (a : Option (Fin 4)) (b : Byte) :
    (s.setArm a).openTarget b = s.openTarget b := rfl

/-! ### The cleared arm passes through the shared operations -/

variable (s : State) (a : Option (Fin 4))

@[simp] theorem State.setArm_setWindow (n : Fin 8) (w : Window) :
    (s.setArm a).setWindow n w = (s.setWindow n w).setArm a := rfl

@[simp] theorem State.setArm_post (e : Event) : (s.setArm a).post e = (s.post e).setArm a := rfl

@[simp] theorem State.setArm_postTogether (es : List Event) :
    (s.setArm a).postTogether es = (s.postTogether es).setArm a := rfl

@[simp] theorem State.setArm_setSlot (o : Option LongOp) : (s.setArm a).setSlot o = (s.setSlot o).setArm a := rfl

@[simp] theorem State.setArm_setPort (p : PortState) : (s.setArm a).setPort p = (s.setPort p).setArm a := rfl

@[simp] theorem State.setArm_setLoad (l : Option Load) : (s.setArm a).setLoad l = (s.setLoad l).setArm a := rfl

@[simp] theorem State.setArm_markSlot (n : Fin 4) (m : Nat) (h : SlotState) :
    (s.setArm a).markSlot n m h = (s.markSlot n m h).setArm a := rfl

@[simp] theorem State.setArm_insertDamage (w : Fin 8) (q : Rect) :
    (s.setArm a).insertDamage w q = (s.insertDamage w q).setArm a := by
  unfold State.insertDamage State.collapseEvent
  rw [State.setArm_damage]
  cases (s.damage.insert w q).2 <;> rfl

@[simp] theorem State.setArm_startRegion : (s.setArm a).startRegion = s.startRegion.setArm a := by
  unfold State.startRegion
  rw [State.setArm_streamer, State.setArm_link]
  cases s.streamer.region with
  | none => rfl
  | some r => simp only; split <;> rfl

@[simp] theorem State.setArm_beginAttempt (w : Fin 8) (r : Rect) :
    (s.setArm a).beginAttempt w r = (s.beginAttempt w r).setArm a :=
  State.setArm_startRegion
    { s with streamer := { s.streamer with state := .sending, region := some (Region.fresh w r), answerTimer := none } } a

@[simp] theorem State.setArm_takeRecord? (p : Record → Bool) :
    (s.setArm a).takeRecord? p = (s.takeRecord? p).map (fun t => t.setArm a) := by
  unfold State.takeRecord?
  rw [State.setArm_damage, Option.map_map]
  congr 1
  funext r
  exact State.setArm_beginAttempt
    { s with damage := s.damage.take p, streamer := { s.streamer with retriesUsed := 0 } } a r.window r.rect

@[simp] theorem State.setArm_takeIfIdle : (s.setArm a).takeIfIdle = s.takeIfIdle.setArm a := by
  unfold State.takeIfIdle
  rw [State.setArm_streamer, State.setArm_takeRecord?]
  split
  · cases s.takeRecord? Record.isPending <;> rfl
  · rfl

@[simp] theorem State.setArm_continuePass : (s.setArm a).continuePass = s.continuePass.setArm a := by
  unfold State.continuePass
  rw [State.setArm_takeRecord?]
  cases s.takeRecord? Record.isMarked <;> rfl

@[simp] theorem State.setArm_abortRegion : (s.setArm a).abortRegion = s.abortRegion.setArm a := rfl

@[simp] theorem State.setArm_regionEnd : (s.setArm a).regionEnd = s.regionEnd.setArm a := by
  cases h : s.streamer.mode with
  | off => rw [State.regionEnd_off h, State.regionEnd_off (s := s.setArm a) h]; rfl
  | free =>
    rw [State.regionEnd_free h, State.regionEnd_free (s := s.setArm a) h]
    exact State.setArm_takeIfIdle
      { s with streamer := { s.streamer with region := none, answerTimer := none, state := .idle } } a
  | gated =>
    cases hp : s.streamer.passOpen with
    | true =>
      rw [State.regionEnd_open h hp, State.regionEnd_open (s := s.setArm a) h hp]
      exact State.setArm_continuePass { s with streamer := { s.streamer with region := none, answerTimer := none } } a
    | false => rw [State.regionEnd_closed h hp, State.regionEnd_closed (s := s.setArm a) h hp]; rfl

@[simp] theorem State.setArm_chooseDrain : (s.setArm a).chooseDrain = s.chooseDrain.setArm a := by
  unfold State.chooseDrain
  by_cases h : s.merge.drain?.isSome = true
  · rw [State.setArm_merge, if_pos h, if_pos h]
  · rw [State.setArm_merge, if_neg h, if_neg h]; rfl

theorem State.setArm_flushEnd? : (s.setArm a).flushEnd? = s.flushEnd?.map fun t => t.setArm a := by
  unfold State.flushEnd?
  rw [State.setArm_mgmt_slot]
  split <;> rfl

theorem State.setArm_closeEnd? : (s.setArm a).closeEnd? = s.closeEnd?.map fun t => t.setArm a := by
  unfold State.closeEnd?
  rw [State.setArm_mgmt_slot]
  split
  · rename_i n _
    by_cases h : s.drainComplete n = true
    · rw [if_pos h, if_pos (show (s.setArm a).drainComplete n = true from h)]; rfl
    · rw [if_neg h, if_neg (show ¬ (s.setArm a).drainComplete n = true from h)]; rfl
  all_goals rfl

theorem State.setArm_longOpEnd? : (s.setArm a).longOpEnd? = s.longOpEnd?.map fun p => (p.1.setArm a, p.2) := by
  unfold State.longOpEnd?
  rw [State.setArm_flushEnd?, State.setArm_closeEnd?]
  cases s.flushEnd? <;> cases s.closeEnd? <;> rfl

@[simp] theorem State.setArm_endPhase2 : (s.setArm a).endPhase2 = s.endPhase2.setArm a := by
  unfold State.endPhase2
  rw [State.setArm_mgmt_slot, State.setArm_host]
  split <;> rfl

@[simp] theorem State.setArm_none_endPhase3 : (s.setArm none).endPhase3 = s.endPhase3.setArm none := by
  unfold State.endPhase3
  rw [State.setArm_mgmt_slot, State.setArm_merge]
  split
  · by_cases hr : s.streamer.region.isSome = true
    · rw [State.resetPhases_region hr, State.resetPhases_region (s := s.setArm none) hr]; rfl
    · rw [Bool.not_eq_true, Option.isSome_eq_false_iff, Option.isNone_iff_eq_none] at hr
      rw [State.resetPhases_quiet hr, State.resetPhases_quiet (s := s.setArm none) hr]; rfl
  · rfl

@[simp] theorem State.setArm_none_settle (es : List Event) :
    (s.setArm none).settle es = (s.settle es).setArm none := by
  unfold State.settle
  rw [State.setArm_longOpEnd?]
  cases s.longOpEnd? <;> simp

@[simp] theorem State.setArm_closeDamage (n : Fin 8) : (s.setArm a).closeDamage n = (s.closeDamage n).setArm a := by
  unfold State.closeDamage
  by_cases h : s.regionOf n = true
  · rw [if_pos h, if_pos (show (s.setArm a).regionOf n = true from h)]
    exact State.setArm_regionEnd
      { s.abortRegion with damage := s.damage.remove fun r => r.window == n } a
  · rw [if_neg h, if_neg (show ¬ (s.setArm a).regionOf n = true from h)]; rfl

@[simp] theorem State.setArm_none_startClose (n : Fin 8) (v : WindowValues) :
    (s.setArm none).startClose n v = (s.startClose n v).setArm none := by
  unfold State.startClose
  simp only [State.setArm_setWindow, State.setArm_closeDamage]
  exact State.setArm_none_settle
    (State.setSlot { (s.setWindow n (.draining v)).closeDamage n with
      merge := ((s.setWindow n (.draining v)).closeDamage n).merge.mark fun e => e.creator == .window n }
      (some (.closeWindow n))) []

@[simp] theorem State.setArm_none_startFlush (sel : Option (Fin 8)) :
    (s.setArm none).startFlush sel = (s.startFlush sel).setArm none :=
  State.setArm_none_settle (State.setSlot { s with merge := s.merge.mark (selects sel) }
    (some (.flush sel ((s.merge.entries.filter (selects sel)).map Entry.word)))) []

@[simp] theorem State.setArm_none_startSoftReset :
    (s.setArm none).startSoftReset = s.startSoftReset.setArm none := by
  simp [State.startSoftReset]

@[simp] theorem State.setArm_scrollDamage (n : Fin 8) (v : WindowValues) :
    (s.setArm a).scrollDamage n v = (s.scrollDamage n v).setArm a := by
  unfold State.scrollDamage
  by_cases ht : (!v.tracking) = true
  · rw [if_pos ht, if_pos ht]
  · rw [if_neg ht, if_neg ht]
    by_cases h : s.regionOf n = true
    · rw [if_pos h, if_pos (show (s.setArm a).regionOf n = true from h)]
      exact State.setArm_regionEnd { s.abortRegion with damage := s.damage.replaceWindow n v.full } a
    · rw [if_neg h, if_neg (show ¬ (s.setArm a).regionOf n = true from h)]
      rw [State.setArm_damage]
      split
      · rfl
      · simp

@[simp] theorem State.setArm_changeScroll (n : Fin 8) (v : WindowValues) (y : Nat) :
    (s.setArm a).changeScroll n v y = (s.changeScroll n v y).setArm a := by
  unfold State.changeScroll
  split <;> simp

@[simp] theorem State.setArm_abortToOff : (s.setArm a).abortToOff = s.abortToOff.setArm a := by
  unfold State.abortToOff
  rw [State.setArm_streamer]
  split <;> rfl

@[simp] theorem State.setArm_setMode (m : StreamMode) : (s.setArm a).setMode m = (s.setMode m).setArm a := by
  cases m with
  | off => exact State.setArm_abortToOff s a
  | free =>
    cases h : s.streamer.state with
    | off | waitSync =>
      simp only [State.setMode, State.setArm_streamer, h]
      exact State.setArm_takeIfIdle
        { s with streamer := { s.streamer with mode := .free, passOpen := false, state := .idle } } a
    | idle | sending | awaitAnswer | stalled =>
      simp only [State.setMode, State.setArm_streamer, h]
      rfl
  | gated => cases h : s.streamer.state <;> simp only [State.setMode, State.setArm_streamer, h] <;> rfl

@[simp] theorem State.setArm_resume : (s.setArm a).resume = s.resume.setArm a := by
  cases h : s.streamer.mode with
  | off => simp only [State.resume, State.setArm_streamer, h]; rfl
  | gated => simp only [State.resume, State.setArm_streamer, h]; rfl
  | free =>
    simp only [State.resume, State.setArm_streamer, h]
    exact State.setArm_takeIfIdle { s with streamer := { s.streamer with mode := .free, state := .idle } } a

/-- The cleared arm passes under the reply. -/
@[simp] theorem State.setArm_reply (d : List Byte) : (s.setArm a).reply d = s.reply d := rfl

end Sys2Proof.Machine
end

