-- ==== Sys2Proof/Laws/Commands.lean ====
section
/-!
SUPPORT. What each frame answers once it is taken (R160, R164 to R168, R172 to R179): its meaning over the state itself, with
the arm's clearing inside the reply.
-/

namespace Sys2Proof.Machine

variable {s : State}

theorem exec_brokenFrame (h : s.ready) : exec .brokenFrame s = .next (s.reply [0x08]) := by
  show execBrokenFrame _ = _
  simp only [execBrokenFrame, State.takeFrame_ready h]
  rfl

theorem exec_unknownCommandFrame (h : s.ready) : exec .unknownCommandFrame s = .next (s.reply [0x03]) := by
  show execUnknownCommandFrame _ = _
  simp only [execUnknownCommandFrame, State.takeFrame_ready h]
  rfl

theorem exec_status (h : s.ready) : exec .status s = .next (s.reply (0x00 :: s.statusData s.mgmt.arm)) := by
  show execStatus _ = _
  simp only [execStatus, State.takeFrame_ready h]
  rfl

theorem exec_ident (h : s.ready) : exec .ident s = .next (s.reply (0x00 :: s.identData)) := by
  show execIdent _ = _
  simp only [execIdent, State.takeFrame_ready h]
  rfl

theorem exec_softReset (h : s.ready) : exec .softReset s = .next (match s.mgmt.slot with
    | some (.profileWrite _) | some (.softReset _) => s.reply [0x02]
    | some (.closeWindow _) | some (.flush ..) | some (.profileLoad _) | none => s.startSoftReset.reply [0x01]) := by
  show execSoftReset _ = _
  simp only [execSoftReset, State.takeFrame_ready h, State.setArm_mgmt_slot]
  cases s.mgmt.slot with
  | none => simp [Result.code, byteOf]
  | some o => cases o <;> simp [Result.code, byteOf]

theorem exec_stageWindow (d : List Byte) (h : s.ready) : exec (.stageWindow d) s = .next (
    if d.length != 32 then s.reply [0x03]
    else if s.resetOrLoad then s.reply [0x02]
    else if (parseDescriptor d).malformed then s.reply [0x03]
    else State.reply { s with table := { s.table with staging := some d } } [0x00]) := by
  show execStageWindow _ _ = _
  simp only [execStageWindow, State.takeFrame_ready h]
  rfl

theorem exec_openWindow (b : Byte) (h : s.ready) : exec (.openWindow b) s = .next (
    match s.openTarget b with
    | .error r => s.reply [byteOf r.code]
    | .ok (w, v) => (s.setWindow w (.active v)).reply [0x00]) := by
  show execOpenWindow _ _ = _
  simp only [execOpenWindow, State.takeFrame_ready h]
  rfl

theorem exec_closeWindow (b : Byte) (h : s.ready) : exec (.closeWindow b) s = .next (
    match windowNumber b with
    | none => s.reply [0x03]
    | some w =>
      if s.mgmt.slot.isSome then s.reply [0x02]
      else match (s.window w).active? with
        | none => s.reply [0x04]
        | some v => (s.startClose w v).reply [0x01]) := by
  show execCloseWindow _ _ = _
  simp only [execCloseWindow, State.takeFrame_ready h, State.setArm_none_startClose]
  rfl

theorem exec_queryWindow (b : Byte) (h : s.ready) : exec (.queryWindow b) s = .next (
    match windowNumber b with
    | none => s.reply [0x03]
    | some w => s.reply (0x00 :: byteOf (s.window w).code :: (s.window w).descriptor)) := by
  show execQueryWindow _ _ = _
  simp only [execQueryWindow, State.takeFrame_ready h]
  rfl

theorem exec_setScroll (b : Byte) (y : BitVec 16) (h : s.ready) : exec (.setScroll b y) s = .next (
    match s.activeTarget b with
    | .error r => s.reply [byteOf r.code]
    | .ok (w, v) =>
      if v.height ≤ y.toNat then s.reply [0x03] else (s.changeScroll w v y.toNat).reply [0x00]) := by
  show execSetScroll _ _ _ = _
  simp only [execSetScroll, State.takeFrame_ready h, State.setArm_changeScroll]
  rfl

theorem exec_setKey (b : Byte) (k : Option Word) (h : s.ready) : exec (.setKey b k) s = .next (
    match s.activeTarget b with
    | .error r => s.reply [byteOf r.code]
    | .ok (w, v) =>
      if k.any (fun x => v.hostFormat.maxKey < x.toNat) then s.reply [0x03]
      else (s.setWindow w (.active { v with key := k.map BitVec.toNat })).reply [0x00]) := by
  show execSetKey _ _ _ = _
  simp only [execSetKey, State.takeFrame_ready h]
  rfl

theorem exec_setClip (b : Byte) (c : Option PackedRect) (h : s.ready) : exec (.setClip b c) s = .next (
    match s.activeTarget b with
    | .error r => s.reply [byteOf r.code]
    | .ok (w, v) =>
      if c.any (fun x => !(unpackRect x).within v.width v.height) then s.reply [0x03]
      else (s.setWindow w (.active { v with clip := c.map unpackRect })).reply [0x00]) := by
  show execSetClip _ _ _ = _
  simp only [execSetClip, State.takeFrame_ready h]
  rfl

theorem exec_setAccess (b m : Byte) (h : s.ready) : exec (.setAccess b m) s = .next (
    match s.activeTarget b with
    | .error r => s.reply [byteOf r.code]
    | .ok (w, v) => match AccessMode.ofCode m.toNat with
      | none => s.reply [0x03]
      | some a => (s.setWindow w (.active { v with access := a })).reply [0x00]) := by
  show execSetAccess _ _ _ = _
  simp only [execSetAccess, State.takeFrame_ready h]
  rfl

theorem exec_flush (b : Byte) (h : s.ready) : exec (.flush b) s = .next (
    match flushSelection b with
    | none => s.reply [0x03]
    | some sel => if s.mgmt.slot.isSome then s.reply [0x02] else (s.startFlush sel).reply [0x01]) := by
  show execFlush _ _ = _
  simp only [execFlush, State.takeFrame_ready h, State.setArm_none_startFlush]
  rfl

theorem exec_queueConfig (hw lg : Byte) (h : s.ready) : exec (.queueConfig hw lg) s = .next (
    if hw.toNat = 0 ∨ 16 < hw.toNat then s.reply [0x03]
    else (State.chooseDrain
      { s with merge := { s.merge with highWater := hw.toNat, linger := lg.toNat } }).reply [0x00]) := by
  have := State.setArm_chooseDrain { s with merge := { s.merge with highWater := hw.toNat, linger := lg.toNat } } none
  show execQueueConfig _ _ _ = _
  simp only [execQueueConfig, State.takeFrame_ready h]
  split
  · rfl
  · exact congrArg (fun t => Host.Outcome.next (State.answer t .done [])) this

theorem exec_damageRead (h : s.ready) : exec .damageRead s = .next (s.reply (0x00 :: s.damage.readData)) := by
  show execDamageRead _ = _
  simp only [execDamageRead, State.takeFrame_ready h]
  rfl

theorem exec_damageAdd (b : Byte) (r : PackedRect) (h : s.ready) : exec (.damageAdd b r) s = .next (
    match s.activeTarget b with
    | .error r => s.reply [byteOf r.code]
    | .ok (w, v) =>
      if !v.tracking then s.reply [0x04]
      else if !(unpackRect r).within v.width v.height then s.reply [0x03]
      else (s.insertDamage w (unpackRect r)).takeIfIdle.reply [0x00]) := by
  show execDamageAdd _ _ _ = _
  simp only [execDamageAdd, State.takeFrame_ready h, State.setArm_insertDamage, State.setArm_takeIfIdle]
  rfl

theorem exec_damageClear (b : Byte) (h : s.ready) : exec (.damageClear b) s = .next (
    match windowNumber b with
    | none => s.reply [0x03]
    | some w =>
      if s.resetOrLoad then s.reply [0x02]
      else State.reply { s with damage := s.damage.remove (Record.pendingOf w) } [0x00]) := by
  show execDamageClear _ _ = _
  simp only [execDamageClear, State.takeFrame_ready h]
  rfl

theorem exec_streamMode (m : Byte) (h : s.ready) : exec (.streamMode m) s = .next (
    match StreamMode.ofCode m.toNat with
    | none => s.reply [0x03]
    | some m => if s.resetOrLoad then s.reply [0x02] else (s.setMode m).reply [0x00]) := by
  show execStreamMode _ _ = _
  simp only [execStreamMode, State.takeFrame_ready h, State.setArm_setMode]
  rfl

theorem exec_streamConfig (f l r : Byte) (h : s.ready) : exec (.streamConfig f l r) s = .next (
    match PanelFormat.ofCode f.toNat with
    | none => s.reply [0x03]
    | some f =>
      if l.toNat = 0 ∨ 3 < r.toNat then s.reply [0x03]
      else if s.resetOrLoad then s.reply [0x02]
      else if s.streamer.state ≠ .off then s.reply [0x04]
      else State.reply { s with streamer := { s.streamer with
        panelFormat := f, answerLimit := l.toNat, retries := r.toNat } } [0x00]) := by
  show execStreamConfig _ _ _ _ = _
  simp only [execStreamConfig, State.takeFrame_ready h]
  rfl

theorem exec_streamResume (h : s.ready) : exec .streamResume s = .next (
    if s.resetOrLoad then s.reply [0x02]
    else if s.streamer.state ≠ .stalled then s.reply [0x04]
    else s.resume.reply [0x00]) := by
  show execStreamResume _ = _
  simp only [execStreamResume, State.takeFrame_ready h, State.setArm_resume]
  rfl

theorem exec_eventsRead (h : s.ready) : exec .eventsRead s = .next (State.reply
    { s with events := { s.events with records := s.events.records.drop 4 } } (0x00 :: s.events.readData)) := by
  show execEventsRead _ = _
  simp only [execEventsRead, State.takeFrame_ready h]
  rfl

theorem exec_irqMask (m : Option Byte) (h : s.ready) : exec (.irqMask m) s = .next (
    match m with
    | none => s.reply [0x00, s.events.mask.zeroExtend 8]
    | some m =>
      if m.getLsbD 7 then s.reply [0x03]
      else State.reply { s with events := { s.events with mask := m.truncate 7 } } [0x00]) := by
  show execIrqMask _ _ = _
  simp only [execIrqMask, State.takeFrame_ready h]
  rfl

theorem exec_profileArm (b : Byte) (h : s.ready) : exec (.profileArm b) s = .next (
    match slotNumber b with
    | none => s.reply [0x03]
    | some k => { s with mgmt := { s.mgmt with response := [0x00], arm := some k } }) := by
  show execProfileArm _ _ = _
  simp only [execProfileArm, State.takeFrame_ready h]
  rfl

theorem exec_profileWrite (h : s.ready) : exec .profileWrite s = .next (
    match s.mgmt.arm with
    | none => s.reply [0x04]
    | some n =>
      if s.mgmt.slot.isSome then s.reply [0x02]
      else if s.heldState n ≠ .blank then s.reply [0x04]
      else (s.startWrite n).reply [0x01]) := by
  show execProfileWrite _ = _
  simp only [execProfileWrite, State.takeFrame_ready h]
  rfl

theorem exec_profileRetire (h : s.ready) : exec .profileRetire s = .next (
    match s.mgmt.arm with
    | none => s.reply [0x04]
    | some n =>
      if s.storeBusy then s.reply [0x02]
      else if s.heldState n ≠ .written then s.reply [0x04]
      else (s.markSlot n 510 .retired).reply [0x00]) := by
  show execProfileRetire _ = _
  simp only [execProfileRetire, State.takeFrame_ready h]
  rfl

theorem exec_profileLoad (b : Byte) (h : s.ready) : exec (.profileLoad b) s = .next (
    match slotNumber b with
    | none => s.reply [0x03]
    | some k =>
      if s.mgmt.slot.isSome then s.reply [0x02]
      else if !s.quietForLoad then s.reply [0x04]
      else if s.heldState k ≠ .written then s.reply [0x04]
      else State.reply (((s.setSlot (some (.profileLoad k))).setPort .held).setLoad
        (some ⟨.profileLoad k, .examining k⟩)) [0x01]) := by
  show execProfileLoad _ _ = _
  simp only [execProfileLoad, State.takeFrame_ready h]
  rfl


end Sys2Proof.Machine
end

