-- ==== Sys2Proof/Laws/Store.lean ====
section
/-!
SUPPORT. The bytes of the profile store (section 1.7.6, R195, R197): reading after programming, every other byte as before, and
the canonical form kept by every operation. Reset's bytes have that form.
-/

namespace Sys2Proof.Machine

/-! ### The canonical form -/

theorem otpWf_cons {k : Nat} {v : Byte} {rest : List Host.Cell} :
    otpWf ((k, v) :: rest) = true ↔ v ≠ 0xFF ∧ (∀ c ∈ rest, k < c.1) ∧ otpWf rest = true := by
  induction rest generalizing k v with
  | nil => simp [otpWf]
  | cons c rest ih =>
    obtain ⟨j, w⟩ := c
    simp only [otpWf, Bool.and_eq_true, bne_iff_ne, ne_eq, decide_eq_true_eq, List.mem_cons, forall_eq_or_imp]
    constructor
    · rintro ⟨⟨hv, hk⟩, hr⟩
      refine ⟨hv, ⟨hk, fun c hc => ?_⟩, hr⟩
      exact lt_trans hk ((ih.mp hr).2.1 c hc)
    · rintro ⟨hv, ⟨hk, _⟩, hr⟩
      exact ⟨⟨hv, hk⟩, hr⟩

/-- An address below every listed one reads FFh (section 1.7.6). -/
theorem otpRead_below {m : List Host.Cell} {a : Nat} (h : ∀ c ∈ m, a < c.1) : otpRead m a = 0xFF := by
  induction m with
  | nil => rfl
  | cons c rest ih =>
    have h1 : a < c.1 := h c List.mem_cons_self
    simp only [otpRead]
    rw [if_neg (by omega)]
    exact ih fun d hd => h d (List.mem_cons_of_mem _ hd)

/-- Putting a byte lists no address below those listed and the one put. -/
theorem otpPut_above {m : List Host.Cell} {a k : Nat} {b : Byte} (h : ∀ c ∈ m, k < c.1) (ha : k < a) :
    ∀ c ∈ otpPut m a b, k < c.1 := by
  induction m with
  | nil =>
    simp only [otpPut]
    split <;> simp [ha]
  | cons c rest ih =>
    obtain ⟨j, v⟩ := c
    have hj : k < j := h (j, v) List.mem_cons_self
    have hr : ∀ c ∈ rest, k < c.1 := fun d hd => h d (List.mem_cons_of_mem _ hd)
    have ih' := ih hr
    simp only [otpPut]
    split
    · split
      · exact h
      · intro d hd
        rcases List.mem_cons.mp hd with rfl | hd
        · exact ha
        · exact h d hd
    · split
      · split
        · exact hr
        · intro d hd
          rcases List.mem_cons.mp hd with rfl | hd
          · exact hj
          · exact hr d hd
      · intro d hd
        rcases List.mem_cons.mp hd with rfl | hd
        · exact hj
        · exact ih' d hd

/-- Putting a byte keeps the canonical form. -/
theorem otpPut_wf {m : List Host.Cell} (a : Nat) (b : Byte) (h : otpWf m = true) : otpWf (otpPut m a b) = true := by
  induction m with
  | nil =>
    simp only [otpPut]
    split
    · rfl
    · simpa [otpWf] using ‹¬ b = 0xFF›
  | cons c rest ih =>
    obtain ⟨k, v⟩ := c
    have hc := otpWf_cons.mp h
    simp only [otpPut]
    split
    · rename_i hak
      split
      · exact h
      · refine otpWf_cons.mpr ⟨by assumption, fun c hc' => ?_, h⟩
        rcases List.mem_cons.mp hc' with rfl | hc'
        · exact hak
        · exact lt_trans hak (hc.2.1 c hc')
    · split
      · split
        · exact hc.2.2
        · exact otpWf_cons.mpr ⟨by assumption, hc.2.1, hc.2.2⟩
      · exact otpWf_cons.mpr ⟨hc.1, otpPut_above hc.2.1 (by omega), ih hc.2.2⟩

/-! ### Reading after a put -/

/-- The byte put reads back. -/
theorem otpRead_put_same {m : List Host.Cell} (a : Nat) (b : Byte) (h : otpWf m = true) :
    otpRead (otpPut m a b) a = b := by
  induction m with
  | nil =>
    simp only [otpPut]
    split
    · simp_all [otpRead]
    · simp [otpRead]
  | cons c rest ih =>
    obtain ⟨k, v⟩ := c
    have hc := otpWf_cons.mp h
    simp only [otpPut]
    split
    · rename_i hak
      split
      · rename_i hb
        rw [hb]
        refine otpRead_below fun c hc' => ?_
        rcases List.mem_cons.mp hc' with rfl | hc'
        · exact hak
        · exact lt_trans hak (hc.2.1 c hc')
      · simp [otpRead]
    · split
      · rename_i hak
        subst hak
        split
        · rename_i hb
          rw [hb]
          exact otpRead_below hc.2.1
        · simp [otpRead]
      · rename_i h1 h2
        simp only [otpRead]
        rw [if_neg (fun h => h2 h.symm)]
        exact ih hc.2.2

/-- Every other byte reads as before. -/
theorem otpRead_put_other (m : List Host.Cell) {a a' : Nat} (b : Byte) (hne : a' ≠ a) :
    otpRead (otpPut m a b) a' = otpRead m a' := by
  induction m with
  | nil =>
    simp only [otpPut]
    split
    · rfl
    · simp [otpRead, Ne.symm hne]
  | cons c rest ih =>
    obtain ⟨k, v⟩ := c
    simp only [otpPut]
    split
    · split
      · rfl
      · simp [otpRead, Ne.symm hne]
    · split
      · rename_i hak
        subst hak
        split <;> simp [otpRead, Ne.symm hne]
      · simp only [otpRead]
        rw [ih]

/-! ### Programming -/

/-- A programmed byte is what it held AND what was programmed (section 1.7.6). -/
theorem otpRead_program_same {m : List Host.Cell} (a : Nat) (b : Byte) (h : otpWf m = true) :
    otpRead (otpProgram m a b) a = otpRead m a &&& b := otpRead_put_same a _ h

theorem otpRead_program_other (m : List Host.Cell) {a a' : Nat} (b : Byte) (hne : a' ≠ a) :
    otpRead (otpProgram m a b) a' = otpRead m a' := otpRead_put_other m _ hne

theorem otpProgram_wf {m : List Host.Cell} (a : Nat) (b : Byte) (h : otpWf m = true) :
    otpWf (otpProgram m a b) = true := otpPut_wf a _ h

theorem otpProgramAll_wf {m : List Host.Cell} (a : Nat) (bs : List Byte) (h : otpWf m = true) :
    otpWf (otpProgramAll m a bs) = true := by
  induction bs generalizing m a with
  | nil => exact h
  | cons b rest ih => exact ih (a + 1) (otpProgram_wf a b h)

/-- Programming consecutive bytes leaves every byte outside them as it was. -/
theorem otpRead_programAll_outside (m : List Host.Cell) (a : Nat) (bs : List Byte) {a' : Nat}
    (h : a' < a ∨ a + bs.length ≤ a') : otpRead (otpProgramAll m a bs) a' = otpRead m a' := by
  induction bs generalizing m a with
  | nil => rfl
  | cons b rest ih =>
    simp only [List.length_cons] at h
    simp only [otpProgramAll]
    rw [ih (otpProgram m a b) (a + 1) (by omega), otpRead_program_other m b (by omega)]

/-- Byte i of consecutive programmed bytes is what it held AND byte i of what was programmed. -/
theorem otpRead_programAll {m : List Host.Cell} (a : Nat) (bs : List Byte) {i : Nat} (hi : i < bs.length)
    (h : otpWf m = true) : otpRead (otpProgramAll m a bs) (a + i) = otpRead m (a + i) &&& bs[i] := by
  induction bs generalizing m a i with
  | nil => simp at hi
  | cons b rest ih =>
    simp only [otpProgramAll]
    cases i with
    | zero =>
      rw [otpRead_programAll_outside _ _ _ (by omega)]
      simpa using otpRead_program_same a b h
    | succ i =>
      have hi' : i < rest.length := by simpa using hi
      have := ih (m := otpProgram m a b) (a + 1) hi' (otpProgram_wf a b h)
      rw [show a + (i + 1) = a + 1 + i by omega, this, otpRead_program_other m b (by omega)]
      simp

/-- The bytes at reset are in canonical form. -/
theorem reset_otp_wf : otpWf State.reset.store.otp = true := rfl

/-- Every byte reads FFh at reset (log 11). -/
theorem reset_otp_read (a : Nat) : otpRead State.reset.store.otp a = 0xFF := rfl

/-- Programming a mark keeps the form (R197). -/
theorem markSlot_otp_wf {s : State} (n : Fin 4) (i : Nat) (h : SlotState) (hw : otpWf s.store.otp = true) :
    otpWf (s.markSlot n i h).store.otp = true := otpProgram_wf _ _ hw

/-- The programming of an image keeps the form (R199). -/
theorem programImage_wf {m : List Host.Cell} (w : Programming) (failed : List (Nat × Byte)) (h : otpWf m = true) :
    otpWf (programImage m w failed) = true := otpProgramAll_wf _ _ h

/-- An interrupted programming leaves bytes in canonical form (R201). -/
theorem interrupted_wf (p : ProfileStore) (k : Nat) (h : otpWf p.otp = true) : otpWf (p.interrupted k) = true := by
  unfold ProfileStore.interrupted
  split
  · exact h
  · exact otpProgramAll_wf _ _ h

/-- A blank part after bytes are programmed from the start of a slot on: the slot reads as those bytes, then FFh. -/
theorem slotImage_programAll (n : Fin 4) (bs : List Byte) (h : bs.length ≤ 512) :
    slotImage (otpProgramAll [] (slotAddress n 0) bs) n = bs ++ List.replicate (512 - bs.length) 0xFF := by
  apply List.ext_getElem
  · simp [slotImage, Config.slotBytes]; omega
  · intro i h1 h2
    have hi : i < 512 := by simpa [slotImage, Config.slotBytes] using h1
    have hs : slotAddress n i = slotAddress n 0 + i := by simp [slotAddress]
    simp only [slotImage, List.getElem_map, List.getElem_range, hs]
    by_cases hb : i < bs.length
    · rw [otpRead_programAll _ _ hb rfl, List.getElem_append_left hb]
      exact BitVec.allOnes_and
    · rw [otpRead_programAll_outside _ _ _ (Or.inr (by omega)), List.getElem_append_right (by omega)]
      simp [otpRead]

end Sys2Proof.Machine
end

