-- ==== Sys2Proof/Laws/Transfer.lean ====
section
/-!
SUPPORT. Transfers on the management bus (section 8.1): what one event on the bus does to the transfer under way, and the
frame that a run of written bytes gathers.
-/

namespace Sys2Proof.Machine

variable {s : State}

/-- Bytes written one after another gather the first 33 of them, and a further one marks the transfer overlong (R159). -/
theorem Transfer.written_bytes (bytes frame : List Byte) (h : frame.length ≤ Config.maxFrame) :
    bytes.foldl Transfer.written (.write frame false)
      = .write ((frame ++ bytes).take Config.maxFrame) (decide (Config.maxFrame < (frame ++ bytes).length)) := by
  have full (bytes frame : List Byte) (h : frame.length = Config.maxFrame) :
      bytes.foldl Transfer.written (.write frame true) = .write frame true := by
    induction bytes with
    | nil => rfl
    | cons b bs ih => simpa [List.foldl, Transfer.written, h] using ih
  induction bytes generalizing frame with
  | nil => simp [List.take_of_length_le h, h]
  | cons b bs ih =>
    by_cases hl : frame.length < Config.maxFrame
    · simpa [List.foldl, Transfer.written, hl] using ih (frame ++ [b]) (by simpa using hl)
    · have he : frame.length = Config.maxFrame := Nat.le_antisymm h (Nat.not_lt.mp hl)
      simp only [List.foldl, Transfer.written, hl, if_false, full bs frame he]
      simp [List.take_append_of_le_length he.ge, he]

/-- A byte of a transfer that the port takes no part in changes nothing (R159). -/
theorem busStep_no_transfer (h : s.mgmt.transfer = none) (b : Byte) (ack inByte : Bool) :
    busStep (.written b) s = .next s ∧ busStep (.taken ack) s = .next s ∧ busStep (.ended inByte) s = .next s := by
  have : s.setTransfer none = s := by simp only [State.setTransfer, ← h]
  simp [busStep, h, this]

/-- The end of a write transfer carries out its frame's command over the state without the transfer (R160). -/
theorem busStep_ended {frame : List Byte} {overlong : Bool} (h : s.mgmt.transfer = some (.write frame overlong))
    (inByte : Bool) : busStep (.ended inByte) s = match decodeFrame frame overlong inByte with
      | some c => exec c (s.setTransfer none)
      | none => .next (s.setTransfer none) := by
  cases hd : decodeFrame frame overlong inByte <;> simp [busStep, h, hd]

/-! ### The host bus -/

/-- The beats of a WRITE before its last are gathered one after another (R142). -/
theorem hostBus_beats (h : s.haccept = true) (a : Word) (hlen : BitVec 4) (bs beats : List WriteBeat)
    (hl : beats.length + bs.length ≤ hlen.toNat) :
    bs.foldl (fun t b => t.hostBus (.beat b)) (s.setIncoming (some ⟨a, hlen, beats⟩))
      = s.setIncoming (some ⟨a, hlen, beats ++ bs⟩) := by
  induction bs generalizing beats with
  | nil => simp
  | cons b bs ih =>
    have hb : beats.length < hlen.toNat := by simp at hl; omega
    have : (s.setIncoming (some ⟨a, hlen, beats⟩)).hostBus (.beat b) = s.setIncoming (some ⟨a, hlen, beats ++ [b]⟩) := by
      simp [State.hostBus, hostBusStep, State.takeBeat, h, hb]
      rfl
    rw [List.foldl_cons, this, ih (beats ++ [b]) (by simp at hl ⊢; omega), List.append_assoc]
    rfl

/-- With no answer going out nothing is on the answer lines (R142, R156). -/
theorem State.answer_lines_rest (h : s.host.sending = none) : s.hans = false ∧ s.herr = false ∧ s.had = none := by
  simp [State.hans, State.herr, State.had, HostPort.answerBeat?, h]

end Sys2Proof.Machine
end

