-- ==== Sys2Proof/Tests/Slice0.lean ====
section
/-!
SUPPORT. The model's own tests: ill-formed commands refused, the specification's worked examples (each theorem names its
section), at most two small steps per command, and for every statement with hypotheses a state and operands that meet
them.
-/

namespace Sys2Proof.Tests

-- The theorems are checked one after another: all at once take more threads than a memory limit of 22 GiB grants.
set_option Elab.async false

open Sys2Proof Sys2Proof.Machine

/-! ### Helpers -/

/-- The outcome is a next state with this property. -/
def after (o : Host.Outcome State Fault Refusal) (p : State → Bool) : Bool :=
  match o with
  | .next t => p t
  | .fault _ | .refused _ => false

/-- A device that a start-up without a good slot has left: ready, nothing open, nothing pending. -/
def up : State :=
  { State.reset with
    host := ⟨.accepting, [], none, [], none, none⟩
    mgmt := ⟨false, [0x00], none, none, none, none⟩
    store := ⟨[], Vector.replicate 4 .blank, none, none⟩ }

/-- A window of 8 × 4 pixels, H16 stored as C16 RGB, pitch 4 words, tracked, panel origin (0, 0). -/
def win (hostBase memBase : Nat) : WindowValues :=
  { hostBase := hostBase, hostSpan := 4096, memBase := memBase, width := 8, height := 4, hostFormat := .h16
    storedFormat := .c16, order := .rgb, mirrorX := false, mirrorY := false, pitch := 4, scroll := 0
    access := .readWrite, key := none, clip := none, tracking := true, origin := some (0, 0) }

/-- Lanes from lane 0 up. -/
def lanes (a b c d e f g h : Option Nibble) : Lanes := #v[a, b, c, d, e, f, g, h]

/-- All eight lanes of a word. -/
def full (w : Word) : Lanes := Lanes.none.fill w

/-- A COLLECTING entry of age 0 without marks. -/
def entry (word : Nat) (l : Lanes) (c : Creator) : Entry := ⟨word, l, c, 0, false, false, .collecting⟩

/-- The state with one window ACTIVE. -/
def withWindow (s : State) (n : Fin 8) (v : WindowValues) : State := s.setWindow n (.active v)

/-- The state with these merge-queue entries. -/
def withEntries (s : State) (l : List Entry) : State := { s with merge := { s.merge with entries := l } }

/-- The state with these damage records. -/
def withRecords (s : State) (l : List Record) : State := { s with damage := ⟨l, 100⟩ }

/-- The state with this streamer state and mode. -/
def withStream (s : State) (st : StreamState) (m : StreamMode) : State :=
  { s with streamer := { s.streamer with state := st, mode := m } }

/-- The state with this access in flight. -/
def withAccess (s : State) (r : Requester) (w : Option Word) (a : Nat) (abandoned : Bool) : State :=
  { s with port := { s.port with access := some ⟨r, w, a, abandoned, 0, 8⟩ } }

/-- The state with these requests and this beat in action. -/
def withRequests (s : State) (l : List HostRecord) (a : Option BeatAction) : State :=
  { s with host := { s.host with requests := l, action := a } }

/-- A READ of some beats, none done. -/
def readOf (a n : Nat) : HostRecord := ⟨.read, a, n, [], none, []⟩

/-- A WRITE of one beat, not done. -/
def writeOf (a : Nat) (data : Word) (enables : BitVec 4) : HostRecord := ⟨.write, a, 1, [⟨data, enables⟩], none, []⟩

/-- A region of window 0 over (0, 0, 1, 0), its REGION message begun. -/
def region0 : Region := ⟨0, ⟨0, 0, 1, 0⟩, true, 0, [], [], 0, 0⟩

/-- Window 0 ACTIVE, its record STREAMING, and the region of it in flight in this state of the streamer. -/
def streaming (st : StreamState) (m : StreamMode) : State :=
  let s := withRecords (withWindow up 0 (win 0x10000 0x4000)) [⟨0, ⟨0, 0, 1, 0⟩, .streaming, false, 1⟩]
  { s with streamer := { s.streamer with
      state := st, mode := m, region := some region0
      answerTimer := if st = .awaitAnswer then some 0 else none } }

/-- The state with a long operation in the slot. -/
def withSlot (s : State) (o : LongOp) : State := { s with mgmt := { s.mgmt with slot := some o } }

/-- The state with this load in progress. -/
def withLoad (s : State) (l : Load) : State := { s with store := { s.store with load := some l } }

/-- The state with a slot's held state. -/
def withHeld (s : State) (n : Fin 4) (h : SlotState) : State :=
  { s with store := { s.store with held := s.store.held.set n h } }

/-- The state with an arm. -/
def withArm (s : State) (n : Fin 4) : State := { s with mgmt := { s.mgmt with arm := some n } }

/-- The image of a device with the factory settings and no window: settings 02h 08h 0Ch 10h 00h 00h 14h 02h 7Fh, present map
0; their sum is 189 - 1 - 1 = 187 = BBh (the sum of 10 section 10.4's bytes 0 to 9 without FREE and without window 0). -/
def emptyImage : List Byte :=
  [0x02, 0x08, 0x0C, 0x10, 0x00, 0x00, 0x14, 0x02, 0x7F] ++ List.replicate 497 0x00 ++ [0xBB, 0x00]

/-- A part whose slot n holds a written, good image. -/
def withGoodSlot (s : State) (n : Fin 4) : State :=
  { s with store := { s.store with
      otp := otpProgramAll [] (slotAddress n 0) (emptyImage ++ [0x00, 0x00])
      held := s.store.held.set n .written } }

/-! ### Ill-formed commands are refused -/

theorem test_stage_window_short_refused : (Instr.stageWindow (List.replicate 31 0)).wellFormed = false := by decide
theorem test_write_without_its_beats_refused :
    (Instr.hostRequestAccept (.write 0 1 [⟨0, 15⟩])).wellFormed = false := by decide
theorem test_entry_of_no_word_refused : (Instr.entryDue 6).wellFormed = false := by decide
theorem test_failure_at_unread_byte_refused : (Instr.programmingEnd [(510, 1)]).wellFormed = false := by decide
theorem test_failure_at_read_bytes_accepted : (Instr.programmingEnd [(507, 1), (509, 255)]).wellFormed = true := by decide

/-! ### Frames as bytes (8.7, 8.3) -/

theorem test_frame_set_scroll : decodeTransfer [0x14, 0x02, 0x2C, 0x01] false = some (.setScroll 2 300) := by decide
theorem test_frame_set_clip : decodeTransfer [0x16, 0x02, 0x10, 0x80, 0x00, 0x2F, 0x71, 0x0E] false
    = some (.setClip 2 (some ⟨16, 8, 303, 231⟩)) := by decide
theorem test_frame_damage_add : decodeTransfer [0x31, 0x00, 0x00, 0x00, 0x00, 0x3F, 0xF1, 0x0E] false
    = some (.damageAdd 0 ⟨0, 0, 319, 239⟩) := by decide
theorem test_frame_status_with_parameter : decodeTransfer [0x01, 0x00] false = some .unknownCommandFrame := by decide
theorem test_frame_unlisted_code : decodeTransfer [0x03] false = some .unknownCommandFrame := by decide
theorem test_frame_without_a_byte : decodeTransfer [] false = none := by decide
theorem test_frame_cut_inside_a_byte : decodeTransfer [0x60] true = some .brokenFrame := by decide
theorem test_frame_of_34_bytes : decodeTransfer (List.replicate 34 0x10) false = some .unknownCommandFrame := by decide

/-! ### Formats (1.3, 1.4, 11.1) -/

/-- The table of R4. -/
theorem test_depth_conversion : convertDepth 16 5 8 = 132 ∧ convertDepth 1 2 8 = 85 ∧ convertDepth 5 3 8 = 182
    ∧ convertDepth 9 4 8 = 153 ∧ convertDepth 1 5 8 = 8 ∧ convertDepth 33 6 8 = 134 ∧ convertDepth 9 4 5 = 19
    ∧ convertDepth 9 4 6 = 38 ∧ convertDepth 16 5 6 = 33 ∧ convertDepth 200 8 5 = 25 ∧ convertDepth 33 6 3 = 4 := by decide

/-- The round-trip example of 1.4: H16 9DA7h to C8 94h, back to 95A0h, and to P24 (146, 182, 0). -/
theorem test_round_trip_c8 :
    let v := { win 0 0 with storedFormat := .c8 }
    toStored v 0x9DA7 = 0x94 ∧ toHost v 0x94 = 0x95A0 ∧ toPanel v .p24 0x94 = 146 * 65536 + 182 * 256 := by decide

/-- The grey case of 1.4: H32 (200, 100, 50) to L4 7, back to 777777h. -/
theorem test_round_trip_grey :
    let v := { win 0 0 with hostFormat := .h32, storedFormat := .l4 }
    toStored v (200 * 65536 + 100 * 256 + 50) = 7 ∧ toHost v 7 = 0x777777 := by decide

/-- 11.1: H32 00FF8040h to FC08h, AA123456h to 11AAh, which reads back as 00103452h. -/
theorem test_h32_to_c16 :
    let v := { win 0 0 with hostFormat := .h32 }
    toStored v 0x00FF8040 = 0xFC08 ∧ toStored v 0xAA123456 = 0x11AA ∧ toHost v 0x11AA = 0x00103452 := by decide

/-- 5.3: C12 BGR 2F8h and 00Fh to P24. -/
theorem test_bgr_to_panel :
    let v := { win 0 0 with storedFormat := .c12, order := .bgr }
    toPanel v .p24 0x2F8 = 0x88FF22 ∧ toPanel v .p24 0x00F = 0xFF0000 := by decide

/-! ### Layouts (1.6, 1.7, 2.3, 2.8, 9.8, 10.4) -/

/-- The C12 examples of R11. -/
theorem test_c12_straddles :
    let v := { win 0 0x4000 with storedFormat := .c12, pitch := 3 }
    (List.range 3).map (v.pixelLane 2 0) = [(0x4000, 6), (0x4000, 7), (0x4004, 0)]
    ∧ (List.range 3).map (v.pixelLane 5 0) = [(0x4004, 7), (0x4008, 0), (0x4008, 1)] := by decide

/-- The mapping example of 2.8. -/
theorem test_mapping_example :
    let v := { win 0 0x1000 with height := 6, mirrorX := true, mirrorY := true, scroll := 2 }
    v.pixelLane 1 0 0 = (0x101C, 0) ∧ v.pixelLane 0 0 0 = (0x101C, 4) ∧ v.pixelLane 7 3 0 = (0x1040, 0)
    ∧ v.pixelLane 1 4 3 = (0x103C, 3) := by decide

/-- The span of 320 × 240 H16 (R20) and the least pitch of 100 C12 pixels (R23). -/
theorem test_span_and_pitch : hostSpanOf 320 240 .h16 = 155648 ∧ hostSpanOf 256 64 .h32 = 65536
    ∧ leastPitch 100 .c12 = 38 := by decide

/-- The window of 10.4. -/
def imageWindow : WindowValues :=
  { hostBase := 0x10000000, hostSpan := 155648, memBase := 0, width := 320, height := 240, hostFormat := .h16
    storedFormat := .c16, order := .rgb, mirrorX := false, mirrorY := false, pitch := 160, scroll := 0
    access := .readWrite, key := none, clip := none, tracking := true, origin := some (0, 0) }

/-- The descriptor of 10.4, written out from its table. -/
def imageDescriptorBytes : List Byte :=
  [0x00, 0x00, 0x00, 0x10, 0, 0, 0, 0, 0x40, 0x01, 0xF0, 0x00, 0xA0, 0x00, 0, 0, 0x31, 0xC0, 0, 0, 0, 0, 0, 0, 0, 0, 0, 0,
   0, 0, 0, 0x2E]

theorem test_descriptor_example : imageWindow.descriptor = imageDescriptorBytes
    ∧ (parseDescriptor imageDescriptorBytes).rangeCheck = some imageWindow := by decide

/-- The captured image of 10.4: bytes 0 to 9 and the checksum 03BDh. -/
theorem test_image_example :
    let image := captureImage { Settings.factory with mode := .free } (withWindow up 0 imageWindow).table
    image.take 10 = [0x02, 0x08, 0x0C, 0x10, 0x01, 0x00, 0x14, 0x02, 0x7F, 0x01]
    ∧ image.drop 506 = [0xBD, 0x03] := by decide +kernel

/-- The two records of 9.8. -/
theorem test_event_bytes :
    EventRecord.bytes ⟨7, .linkFail 1 ⟨3, 0, 4, 0⟩ .noAnswer, false⟩
      = [0x07, 0x03, 0x01, 0x01, 0, 0, 0, 0, 0x03, 0x00, 0x00, 0x04, 0x00, 0x00, 0x01, 0x00]
    ∧ EventRecord.bytes ⟨8, .drainTimeout true .bypass 0x2000, false⟩
      = [0x08, 0x02, 0x02, 0x00, 0x00, 0x20, 0, 0, 0, 0, 0, 0, 0, 0, 0x02, 0x08] := by decide

/-- REGION of 5.3 and of 11.4, and END of R17's example. -/
theorem test_panel_messages :
    regionBytes .p24 (100, 40) ⟨3, 0, 4, 0⟩ = [0xC1, 0x01, 0x00, 0x67, 0x00, 0x28, 0x00, 0x02, 0x00, 0x01]
    ∧ regionBytes .p16 (200, 100) ⟨0, 0, 15, 7⟩ = [0xC1, 0x00, 0x00, 0xC8, 0x00, 0x64, 0x00, 0x10, 0x00, 0x08]
    ∧ endBytes 0x01DF = [0xC3, 0x01, 0xDF] := by decide

/-! ### One step of each command -/

/-- 11.7: marks of four slots as power-on finds them. -/
def marked : State :=
  { up with store := { up.store with
      otp := [(508, 0), (509, 0), (510, 0), (1020, 0), (1021, 0), (1532, 0), (1533, 0), (2044, 0)] } }

/-- 11.7, first row: the held states that the marks decide, and IDENT's slot codes. -/
theorem test_power_on_reads_marks : after (exec (.powerOn true) marked) (fun t =>
    allSlots.map t.heldState == [.retired, .written, .written, .damaged] && t.i2cAddress == 0x2D
    && t.host.state == .held && t.mgmt.response == [0x02] && t.events.counter == 0) = true := by decide

theorem test_reset_pin_restarts_load : after (exec (.resetPin false) (withLoad marked ⟨.startUp, .examining 2⟩)) (fun t =>
    t.store.load == some ⟨.startUp, .examining 3⟩ && t.i2cAddress == 0x2C && t.store.otp == marked.store.otp) = true := by
  decide

/-- 11.7, second row: a slot that is not WRITTEN is passed over without an event. -/
theorem test_examination_passes_over : after
    (exec .slotExamination (withLoad (withHeld up 3 .damaged) ⟨.startUp, .examining 3⟩)) (fun t =>
      t.store.load == some ⟨.startUp, .examining 2⟩ && t.events.records == []) = true := by decide

/-- 11.7, first variation: a checksum that fails damages the slot. -/
theorem test_examination_damages : after
    (exec .slotExamination (withLoad (withHeld up 2 .written) ⟨.startUp, .examining 2⟩)) (fun t =>
      t.store.load == some ⟨.startUp, .examining 1⟩ && t.heldState 2 == .damaged
      && otpRead t.store.otp 1535 == 0 && t.events.records == [⟨0, .profileFault 2 none .fault, false⟩]) = true := by
  decide +kernel

/-- The image of slot 2 of 11.7, bytes 0 to 271: 8 MiB, high-water 10, linger time 24 µs, FREE, present map 03h, and two
descriptors of which the second lies inside the first. -/
def overlapping : List Byte :=
  [0x03, 0x08, 0x0A, 0x18, 0x01, 0x00, 0x14, 0x02, 0x7F, 0x03, 0, 0, 0, 0, 0, 0] ++ imageDescriptorBytes
    ++ ([0x00, 0x00, 0x02] ++ (imageDescriptorBytes.drop 3).take 28 ++ [0x2C]) ++ List.replicate 192 0

/-- 11.7: descriptor 0 opens, descriptor 1 fails the host range check, and PROFILE_LOADED(2) ends the start-up. -/
theorem test_start_up_from_slot_2 :
    let t := (State.openWindows (withLoad up ⟨.startUp, .applying (some 2)⟩) 2 overlapping).endLoad .startUp (some 2)
    t.window 0 = .active imageWindow ∧ t.window 1 = .unused
    ∧ t.events.records = [⟨0, .profileFault 2 (some 1) .overlap, false⟩, ⟨1, .profileLoaded (some 2), false⟩]
    ∧ t.host.state = .accepting ∧ t.mgmt.response = [0x00] ∧ t.store.load = none := by decide

/-- A start-up that finds no good slot (R207, R209). -/
theorem test_factory_start_up : after
    (exec .applyGlobalSettings (withLoad State.reset ⟨.startUp, .applying none⟩)) (fun t =>
      t.host.state == .accepting && t.irq && t.events.records == [⟨0, .profileLoaded none, false⟩]
      && t.store.load == none) = true := by decide

theorem test_broken_frame : after (exec .brokenFrame (withArm up 1)) (fun t =>
    t.mgmt.response == [0x08] && t.mgmt.arm == none) = true := by decide
theorem test_unknown_frame : after (exec .unknownCommandFrame (withArm up 1)) (fun t =>
    t.mgmt.response == [0x03] && t.mgmt.arm == none) = true := by decide

/-- The two STATUS frames of 8.4. -/
theorem test_status_reports_arm : after (exec .status (withArm up 1)) (fun t =>
    t.mgmt.response[17]? == some 0x01 && t.mgmt.response.length == 19 && t.mgmt.arm == none) = true := by decide
theorem test_status_reports_slot : after (exec .status (withSlot up (.profileWrite 1))) (fun t =>
    (t.mgmt.response.drop 14).take 4 == [0x61, 0x01, 0x00, 0xFF]) = true := by decide

theorem test_ident : after (exec .ident (withHeld (withHeld (withHeld (withHeld up 0 .retired) 1 .written) 2 .written) 3 .damaged))
    (fun t => t.mgmt.response == [0x00, 0x22, 0x4A, 0x03, 0x03, 0x02, 0x02, 0x04]) = true := by decide

theorem test_soft_reset_busy : after (exec .softReset (withSlot up (.profileWrite 1))) (fun t =>
    t.mgmt.response == [0x02] && t.host.state == .accepting) = true := by decide
theorem test_soft_reset_empty_device : after (exec .softReset up) (fun t =>
    t.mgmt.response == [0x01] && t.mgmt.slot == some (.softReset .phase7) && t.host.state == .refusing
    && t.store.load == some ⟨.softReset, .examining 3⟩) = true := by decide

/-- A partial entry of word 2000h with lanes 4, 3, 2, 1 (3.7). -/
def e2000 : Entry := entry 0x2000 (lanes (some 4) (some 3) (some 2) (some 1) none none none none) .bypass

theorem test_phase2_marks : after
    (exec .softResetPhase2End (withSlot (withEntries up [e2000]) (.softReset .phase2))) (fun t =>
      t.mgmt.slot == some (.softReset .phase3)
      && t.merge.entries == [{ e2000 with flushMark := true, state := .fetching }]) = true := by decide
theorem test_phase3_waits : after
    (exec .softResetPhase3End (withSlot (withEntries up [{ e2000 with state := .fetching }]) (.softReset .phase3))) (fun t =>
      t.mgmt.slot == some (.softReset .phase3)) = true := by decide
theorem test_phase3_ends : after
    (exec .softResetPhase3End (withSlot (streaming .sending .free) (.softReset .phase3))) (fun t =>
      t.mgmt.slot == some (.softReset .phase7) && t.link.abortsOwed == 1 && t.window 0 == .unused
      && t.damage.records == [] && t.streamer.state == .off) = true := by decide

theorem test_stage_window : after (exec (.stageWindow imageDescriptorBytes) up) (fun t =>
    t.mgmt.response == [0x00] && t.table.staging == some imageDescriptorBytes) = true := by decide
theorem test_stage_window_malformed : after (exec (.stageWindow (0x01 :: imageDescriptorBytes.drop 1)) up) (fun t =>
    t.mgmt.response == [0x03] && t.table.staging == none) = true := by decide

/-- The descriptor of 10.4 staged. -/
def staged : State := { up with table := { up.table with staging := some imageDescriptorBytes } }

theorem test_open_window : after (exec (.openWindow 3) staged) (fun t =>
    t.mgmt.response == [0x00] && t.window 3 == .active imageWindow) = true := by decide
theorem test_open_window_overlap : after
    (exec (.openWindow 3) (withWindow staged 0 (win 0x10025000 0))) (fun t =>
      t.mgmt.response == [0x05] && t.window 3 == .unused) = true := by decide

/-- The state of 11.5 as CLOSE_WINDOW meets it: window 2 with a region in flight in AWAIT_ANSWER, an entry of it in WRITING,
an entry of window 0, a collecting entry of it, and a beat of it that waits on the WRITING word. -/
def closing : State :=
  let s := withWindow (withWindow up 0 (win 0x10000 0xA000)) 2 (win 0x40000000 0x9000)
  let s := withRecords s [⟨2, ⟨0, 0, 7, 0⟩, .streaming, false, 1⟩, ⟨0, ⟨0, 0, 3, 3⟩, .pending, false, 2⟩,
    ⟨2, ⟨0, 1, 1, 1⟩, .pending, false, 3⟩]
  let s := withEntries s [{ entry 0x9000 (full 0) (.window 2) with state := .writing, age := 45 },
    entry 0xA000 e2000.lanes (.window 0), entry 0x9004 e2000.lanes (.window 2), entry 0x9010 e2000.lanes .bypass]
  let c : Carried := ⟨2, win 0x40000000 0x9000, 0, 0⟩
  let b : WriteBeat := ⟨0x22221111, 15⟩
  let s := withRequests s [writeOf 0x40000000 0x22221111 15] (some (.write (.window 2) (c.lanes b) (some (c, c.run b))))
  let s := withAccess s .drain (some 0) 0x9000 false
  { s with streamer := { s.streamer with
      state := .awaitAnswer, mode := .free, answerTimer := some 0, region := some ⟨2, ⟨0, 0, 7, 0⟩, true, 8, [], [], 8, 0⟩ } }

/-- 11.5, first row. -/
theorem test_close_window : after (exec (.closeWindow 2) closing) (fun t =>
    t.mgmt.response == [0x01] && t.mgmt.slot == some (.closeWindow 2)
    && t.merge.entries.map Entry.flushMark == [true, false, true, false] && t.link.abortsOwed == 1
    && t.damage.records.map (fun r => (r.window, r.state)) == [(0, .streaming)] && t.streamer.state == .sending) = true := by
  decide

/-- 11.5 after the close is taken. -/
def closed : State := match exec (.closeWindow 2) closing with
  | .next t => t
  | .fault _ | .refused _ => up

/-- 11.5, second row: E1 removed, P taken as a flush-marked complete entry, E3 chosen. -/
theorem test_close_takes_waiting_beat : after (exec (.memoryAnswer 0) closed) (fun t =>
    t.merge.entries.map (fun e => (e.word, e.flushMark, e.state))
      == [(0xA000, false, .collecting), (0x9004, true, .fetching), (0x9010, false, .collecting), (0x9000, true, .collecting)]
    && t.damage.records.map Record.window == [0] && t.host.requests.map HostRecord.done == [true]) = true := by
  decide

theorem test_close_drain_waits : after (exec .closeDrainComplete closed) (fun t =>
    t.mgmt.slot == some (.closeWindow 2)) = true := by decide

theorem test_query_unused_window : after (exec (.queryWindow 7) up) (fun t =>
    t.mgmt.response == List.replicate 34 0x00) = true := by decide
theorem test_query_window : after (exec (.queryWindow 1) (withWindow up 1 imageWindow)) (fun t =>
    t.mgmt.response == [0x00, 0x01] ++ imageDescriptorBytes) = true := by decide

/-- The state of 11.4 after the run was taken: A of window 6 STREAMING and marked, C of window 7, B of window 6. -/
def scrolling : State :=
  let w : WindowValues := { win 0x20000 0x8000 with width := 16, height := 8, pitch := 8, origin := some (200, 100) }
  let s := withWindow (withWindow up 6 w) 7 (win 0x30000 0x6000)
  let s := withRecords s [⟨6, ⟨0, 2, 15, 2⟩, .streaming, true, 1⟩, ⟨7, ⟨0, 0, 7, 0⟩, .pending, true, 2⟩,
    ⟨6, ⟨0, 5, 3, 5⟩, .pending, false, 3⟩]
  { s with streamer := { s.streamer with
      state := .sending, mode := .gated, passOpen := true, region := some ⟨6, ⟨0, 2, 15, 2⟩, true, 4, [], [], 3, 7⟩ } }

/-- 11.4: the scroll change puts R at A's place with A's mark, and R is taken. -/
theorem test_set_scroll_during_region : after (exec (.setScroll 6 1) scrolling) (fun t =>
    t.mgmt.response == [0x00] && t.link.abortsOwed == 1 && t.streamer.state == .sending && t.streamer.passOpen
    && t.damage.records.map (fun r => (r.window, r.rect, r.state, r.mark))
      == [(6, ⟨0, 0, 15, 7⟩, .streaming, true), (7, ⟨0, 0, 7, 0⟩, .pending, true)]) = true := by decide
theorem test_set_scroll_equal : after (exec (.setScroll 6 0) scrolling) (fun t =>
    t.mgmt.response == [0x00] && t.damage == scrolling.damage && t.link == scrolling.link) = true := by decide

/-- Window 0 of 8 × 4 pixels ACTIVE, nothing else. -/
def w0up : State := withWindow up 0 (win 0x10000 0x4000)

theorem test_set_key : after (exec (.setKey 0 (some 0xFFFF)) w0up) (fun t =>
    t.window 0 == .active { win 0x10000 0x4000 with key := some 0xFFFF }) = true := by decide
theorem test_set_key_out_of_range : after (exec (.setKey 0 (some 0x10000)) w0up) (fun t =>
    t.mgmt.response == [0x03] && t.window 0 == w0up.window 0) = true := by decide
theorem test_set_clip : after (exec (.setClip 0 (some ⟨0, 0, 5, 3⟩)) w0up) (fun t =>
    t.window 0 == .active { win 0x10000 0x4000 with clip := some ⟨0, 0, 5, 3⟩ }) = true := by decide
theorem test_set_access : after (exec (.setAccess 0 2) w0up) (fun t =>
    t.window 0 == .active { win 0x10000 0x4000 with access := .writeOnly }) = true := by decide

/-- Two entries, of window 0 and of a bypass beat. -/
def twoEntries : State := withEntries w0up [entry 0x4000 e2000.lanes (.window 0), e2000]

theorem test_flush_one_window : after (exec (.flush 0) twoEntries) (fun t =>
    t.mgmt.response == [0x01] && t.mgmt.slot == some (.flush (some 0) [0x4000])
    && t.merge.entries.map (fun e => (e.flushMark, e.state)) == [(true, .fetching), (false, .collecting)]) = true := by
  decide
theorem test_flush_of_nothing : after (exec (.flush 0xFF) up) (fun t =>
    t.mgmt.response == [0x01] && t.mgmt.slot == none && t.events.records == [⟨0, .opDone 0x20 .done, false⟩]) = true := by
  decide
theorem test_flush_complete : after (exec .flushComplete (withSlot up (.flush none []))) (fun t =>
    t.mgmt.slot == none && t.events.records == [⟨0, .opDone 0x20 .done, false⟩]) = true := by decide
theorem test_queue_config : after (exec (.queueConfig 2 40) twoEntries) (fun t =>
    t.mgmt.response == [0x00] && t.merge.highWater == 2 && t.merge.linger == 40
    && t.merge.entries.map Entry.state == [.fetching, .collecting]) = true := by decide

/-- 11.2, second row: both ages reach 16 µs; E1 is older, partial, and becomes FETCHING. -/
theorem test_entry_due : after (exec (.entryDue 0x4000) twoEntries) (fun t =>
    t.merge.entries.map (fun e => (e.age, e.state)) == [(16, .fetching), (16, .collecting)]) = true := by decide

/-- The list of 11.6 in STALLED: A is not the tail, B is. -/
def stalled : State :=
  withStream (withRecords (withWindow up 1 (win 0x10000 0x4000))
    [⟨1, ⟨3, 0, 4, 0⟩, .pending, false, 1⟩, ⟨1, ⟨4, 0, 4, 0⟩, .pending, false, 2⟩]) .stalled .free

theorem test_damage_read : after (exec .damageRead stalled) (fun t => t.mgmt.response
    == [0x00, 0x02, 0x01, 0x00, 3, 0, 0, 4, 0, 0, 0x01, 0x04, 4, 0, 0, 4, 0, 0]) = true := by decide

/-- 11.3's run for W3 on a full list of records of W0 and W1, eleven and thirteen: W1 collapses. -/
def fullList : State :=
  let w := win 0x10000 0x4000
  withRecords (withWindow (withWindow (withWindow up 0 w) 1 { w with hostBase := 0x20000 }) 3 { w with hostBase := 0x30000 })
    ((List.range 24).map fun i => ⟨if i < 11 then 0 else 1, ⟨0, 0, 0, 0⟩, .pending, false, i⟩)

theorem test_damage_add_collapses : after (exec (.damageAdd 3 ⟨2, 2, 3, 3⟩) fullList) (fun t =>
    t.damage.records.length == 13 && t.events.records == [⟨0, .damageCollapse 1, false⟩]
    && (t.damage.records[11]?).map Record.window == some 1 && (t.damage.records[12]?).map Record.window == some 3) = true := by
  decide
/-- The first growth of 4.4. -/
theorem test_damage_add_grows : after
    (exec (.damageAdd 0 ⟨2, 1, 3, 1⟩) (withRecords w0up [⟨0, ⟨0, 1, 1, 1⟩, .pending, false, 1⟩])) (fun t =>
      t.damage.records.map Record.rect == [⟨0, 1, 3, 1⟩]) = true := by decide
theorem test_damage_clear : after (exec (.damageClear 6) scrolling) (fun t =>
    t.damage.records.map (fun r => (r.window, r.state)) == [(6, .streaming), (7, .pending)]) = true := by decide

theorem test_stream_mode_free_takes : after (exec (.streamMode 1) (withStream stalled .off .off)) (fun t =>
    t.streamer.state == .sending && t.link.log == [.regionBegun [0xC1, 0, 0, 3, 0, 0, 0, 2, 0, 1]]) = true := by
  decide
theorem test_stream_mode_off_aborts : after (exec (.streamMode 0) (streaming .awaitAnswer .free)) (fun t =>
    t.streamer.state == .off && t.link.abortsOwed == 1 && t.streamer.answerTimer == none
    && t.damage.records.map Record.state == [.pending]) = true := by decide
theorem test_stream_config : after (exec (.streamConfig 1 5 3) up) (fun t =>
    t.streamer.panelFormat == .p24 && t.streamer.answerLimit == 5 && t.streamer.retries == 3) = true := by decide
theorem test_stream_resume : after (exec .streamResume stalled) (fun t =>
    t.mgmt.response == [0x00] && t.streamer.state == .sending && t.streamer.retriesUsed == 0
    && t.damage.records.map Record.state == [.streaming, .pending]) = true := by decide

/-- The event queue of 9.5 after A: records 240 to 255, the counter 0. -/
def sixteen : State :=
  { up with events := ⟨(List.range 16).map fun i => ⟨byteOf (240 + i), .damageCollapse 0, false⟩, 0, 0x7F⟩ }

/-- 9.5: B is discarded and marks 255. -/
theorem test_overflow_marks_newest :
    (sixteen.post (.damageCollapse 1)).events.records.getLast? = some ⟨255, .damageCollapse 0, true⟩
    ∧ (sixteen.post (.damageCollapse 1)).events.counter = 1 := by decide
/-- 9.5: EVENTS_READ answers 67 bytes and leaves 12. -/
theorem test_events_read : after (exec .eventsRead sixteen) (fun t =>
    t.mgmt.response.length == 67 && t.mgmt.response.take 4 == [0x00, 0x0C, 0x04, 240]
    && t.events.records.map EventRecord.sequence == (List.range 12).map (fun i => byteOf (244 + i))) = true := by
  decide
/-- 9.6: mask 14h leaves a DAMAGE_COLLAPSE silent, 1Ch enables it. -/
theorem test_irq_mask_14 : after (exec (.irqMask (some 0x14)) sixteen) (fun t => !t.irq) = true := by decide
theorem test_irq_mask_1c : after (exec (.irqMask (some 0x1C)) sixteen) (fun t => t.irq) = true := by decide

theorem test_profile_arm : after (exec (.profileArm 1) up) (fun t =>
    t.mgmt.response == [0x00] && t.mgmt.arm == some 1) = true := by decide
/-- 8.4: PROFILE_WRITE without an arm, and with it. -/
theorem test_profile_write_unarmed : after (exec .profileWrite up) (fun t =>
    t.mgmt.response == [0x04] && t.mgmt.slot == none) = true := by decide
theorem test_profile_write : after (exec .profileWrite (withArm up 1)) (fun t =>
    t.mgmt.response == [0x01] && t.mgmt.slot == some (.profileWrite 1) && t.heldState 1 == .programming
    && t.store.otp == [(1020, 0)]) = true := by decide

/-- A PROFILE_WRITE of slot 1 in flight, its started mark set. -/
def writing : State :=
  let s := withSlot (withHeld up 1 .programming) (.profileWrite 1)
  { s with store := { s.store with otp := [(1020, 0)], programming := some ⟨1, [0x0F, 0xF0] ++ List.replicate 506 0xFF⟩ } }

/-- 10.4, last row. -/
theorem test_programming_end : after (exec (.programmingEnd []) writing) (fun t =>
    t.heldState 1 == .written && t.store.otp == [(512, 0x0F), (513, 0xF0), (1020, 0), (1021, 0)]
    && t.events.records == [⟨0, .opDone 0x61 .done, false⟩] && t.mgmt.slot == none) = true := by decide +kernel
/-- R200: a bit that did not take fails the read-back. -/
theorem test_programming_end_fails : after (exec (.programmingEnd [(0, 0x80)]) writing) (fun t =>
    t.heldState 1 == .damaged) = true := by decide +kernel
theorem test_profile_retire : after (exec .profileRetire (withArm (withHeld up 2 .written) 2)) (fun t =>
    t.mgmt.response == [0x00] && t.heldState 2 == .retired && otpRead t.store.otp 1534 == 0x00) = true := by decide
theorem test_profile_load : after (exec (.profileLoad 2) (withHeld up 2 .written)) (fun t =>
    t.mgmt.response == [0x01] && t.host.state == .held && t.store.load == some ⟨.profileLoad 2, .examining 2⟩) = true := by
  decide

/-- 7.2: a READ of length 5 at FFFFFFF0h is answered with five ERROR beats; one of length 4 is accepted normally. -/
theorem test_request_wraps : after (exec (.hostRequestAccept (.read 0xFFFFFFF0 4)) up) (fun t =>
    t.host.requests.map HostRecord.outcomes == [List.replicate 5 ⟨true, 0⟩]
    && t.events.records == [⟨0, .hostRefused .wrap none 0xFFFFFFF0, false⟩]) = true := by decide
theorem test_request_at_the_top : after (exec (.hostRequestAccept (.read 0xFFFFFFF3 3)) up) (fun t =>
    t.host.requests == [readOf 0xFFFFFFF0 4] && t.events.records == []) = true := by decide

/-- Window 2 of 7.6. -/
def burstWindow : WindowValues := { win 0x10000 0x4000 with clip := some ⟨0, 0, 5, 3⟩, key := some 0 }

/-- The burst of 7.6 with its first beats done. -/
def burst (done : Nat) : State :=
  withRequests (withWindow up 2 burstWindow)
    [⟨.write, 0x10008, 3, [⟨0x0000F800, 15⟩, ⟨0x12345678, 15⟩, ⟨0x11112222, 7⟩], none, List.replicate done ⟨false, 0⟩⟩] none

/-- 7.6, beat 0: only (4,0) is applied, in lanes 0 to 3 of 4008h. -/
theorem test_beat_decode_window_write : after (exec .beatDecode (burst 0)) (fun t =>
    t.host.action == some (.write (.window 2) [⟨0x4008, 0, 0⟩, ⟨0x4008, 1, 0⟩, ⟨0x4008, 2, 8⟩, ⟨0x4008, 3, 15⟩]
      (some (⟨2, burstWindow, 4, 0⟩, ⟨4, 0, 4, 0⟩)))) = true := by decide
/-- 7.6, beat 2: PARTIAL_PIXEL. -/
theorem test_beat_decode_partial_pixel : after (exec .beatDecode (burst 2)) (fun t =>
    t.events.records == [⟨0, .hostRefused .partialPixel (some 2) 0x10010, false⟩]
    && t.host.requests.map HostRecord.answer == [[⟨0, true⟩]]) = true := by decide

/-- 11.2's first beat: pixels (2, 0) and (3, 0) in C12. -/
def straddling : State :=
  let v : WindowValues := { win 0x30000000 0x7000 with storedFormat := .c12, pitch := 3, tracking := false }
  let c : Carried := ⟨5, v, 2, 0⟩
  let b : WriteBeat := ⟨0x07E0F800, 15⟩
  withRequests (withWindow up 5 v) [writeOf 0x30000004 0x07E0F800 15] (some (.write (.window 5) (c.lanes b) (some (c, c.run b))))

/-- 11.2, first row. -/
theorem test_lane_arrival : after (exec .laneArrival straddling) (fun t =>
    t.merge.entries == [entry 0x7000 (lanes none none none none none none (some 0) (some 0)) (.window 5),
      entry 0x7004 (lanes (some 15) (some 0) (some 15) (some 0) none none none none) (.window 5)]
    && t.damage.records == [] && t.host.requests.map HostRecord.done == [true]) = true := by decide

theorem test_host_answer : after
    (exec .hostAnswerTransfer (withRequests up [{ readOf 0x100 2 with outcomes := [⟨false, 5⟩, ⟨true, 0⟩] }] none)) (fun t =>
      t.host.requests == [] && t.host.answers == [[⟨5, false⟩, ⟨0, true⟩]]) = true := by decide

/-- A read beat of the entry's word 2000h in action. -/
def reading : State := withRequests (withEntries up [e2000]) [readOf 0x2000 1] (some (.read none [0x2000] []))

theorem test_grant_host_read : after (exec .arbiterGrant reading) (fun t =>
    t.port.access == some ⟨.hostRead, none, 0x2000, false, 0, 8⟩) = true := by decide
/-- The guard of R132: at a stream wait count of 8, STREAM is granted before a host read. -/
theorem test_grant_guard :
    let s := withRequests (streaming .sending .free) [readOf 0x2000 1] (some (.read none [0x2000] []))
    after (exec .arbiterGrant { s with port := { s.port with streamWait := 8 } }) (fun t =>
      (t.port.access.map Access.requester) == some .stream && t.port.streamWait == 0) = true := by decide

/-- 3.7: memory 55667788h read while the entry stands gives 55661234h; a fetch answer fills lanes 4 and 5 only, and the word is
AB661234h. -/
theorem test_overlay_and_fetch :
    let e : Entry := { e2000 with
      lanes := lanes (some 4) (some 3) (some 2) (some 1) none none (some 11) (some 10), state := .fetching }
    after (exec (.memoryAnswer 0x55667788) (withAccess reading .hostRead none 0x2000 false)) (fun t =>
      t.host.requests.map HostRecord.outcomes == [[⟨false, 0x55661234⟩]]) = true
    ∧ after (exec (.memoryAnswer 0x55667788) (withAccess (withEntries up [e]) .drain none 0x2000 false)) (fun t =>
      t.merge.entries.map (fun e => (e.lanes.word, e.state)) == [(0xAB661234, .pendingWrite)]) = true := by
  decide +kernel

/-- 3.7: the first timeout of the fetch marks the retry; a second timeout, of the write, removes the entry. -/
theorem test_timeout_retries : after
    (exec .accessTimeout (withAccess (withEntries up [{ e2000 with state := .fetching }]) .drain none 0x2000 false)) (fun t =>
      t.merge.entries == [{ e2000 with state := .fetching, retryUsed := true }] && t.events.records == []) = true := by
  decide
theorem test_timeout_loses_entry : after
    (exec .accessTimeout (withAccess (withEntries up [{ e2000 with lanes := full 0, state := .writing, retryUsed := true }])
      .drain (some 0) 0x2000 false)) (fun t =>
      t.merge.entries == [] && t.events.records == [⟨0, .drainTimeout true .bypass 0x2000, false⟩]) = true := by
  decide

/-- A SENDING region of window 0 with one pixel ready, or with both sent. -/
def sending (ready : List Nat) (sent : Nat) (checksum : BitVec 16) : State :=
  let s := streaming .sending .free
  { s with streamer := { s.streamer with region := some { region0 with ready := ready, sent := sent, checksum := checksum } } }

/-- R17's example: the pixel 07E0h after F800h brings the checksum to 01DFh. -/
theorem test_pixel_sent : after (exec .pixelSent (sending [0x07E0] 1 0x00F8)) (fun t =>
    t.link.log == [.pixel [0x07, 0xE0]] && t.streamer.region.map Region.checksum == some 0x01DF) = true := by decide
/-- 5.3: DATA begins C2h, 88h, FFh, 22h, and the checksum is 425. -/
theorem test_first_pixel_sent :
    let s := sending [0x88FF22] 0 0
    after (exec .pixelSent { s with streamer := { s.streamer with panelFormat := .p24 } }) (fun t =>
      t.link.log == [.pixel [0xC2, 0x88, 0xFF, 0x22]] && t.streamer.region.map Region.checksum == some 425) = true := by
  decide
theorem test_end_sent : after (exec .endSent (sending [] 2 0x01DF)) (fun t =>
    t.link.log == [.endGone [0xC3, 0x01, 0xDF]] && t.streamer.state == .awaitAnswer
    && t.streamer.answerTimer == some 0) = true := by decide

theorem test_panel_accept : after (exec .panelAccept (streaming .awaitAnswer .free)) (fun t =>
    t.streamer.state == .idle && t.damage.records == [] && t.streamer.answerTimer == none) = true := by decide
theorem test_panel_accept_ignored : after (exec .panelAccept stalled) (fun t => t == stalled) = true := by decide

/-- 11.6: the first REFUSE resends with retries used 1. -/
theorem test_panel_refuse : after (exec .panelRefuse (streaming .awaitAnswer .free)) (fun t =>
    t.streamer.state == .sending && t.streamer.retriesUsed == 1 && t.events.records == []) = true := by decide

/-- The region of `streaming` with its retries used. -/
def lastAttempt : State :=
  let s := streaming .awaitAnswer .free
  { s with streamer := { s.streamer with retriesUsed := 2 } }

/-- An expiry with no retry left stalls with NO_ANSWER (R108). -/
theorem test_answer_timeout : after (exec .answerTimeout lastAttempt) (fun t =>
    t.streamer.state == .stalled && t.events.records == [⟨0, .linkFail 0 ⟨0, 0, 1, 0⟩ .noAnswer, false⟩]
    && t.damage.records.map Record.state == [.pending]) = true := by decide

/-- 11.4, first row. -/
theorem test_sync : after (exec .sync (withStream stalled .waitSync .gated)) (fun t =>
    t.streamer.state == .sending && t.streamer.passOpen
    && t.damage.records.map (fun r => (r.mark, r.state)) == [(true, .streaming), (true, .pending)]) = true := by decide
theorem test_sync_ignored : after (exec .sync stalled) (fun t => t == stalled) = true := by decide

/-- After 11.4's ABORT (C4h) has gone out, R's REGION begins. -/
theorem test_abort_message_sent :
    let s := streaming .sending .free
    after (exec .abortMessageSent { s with
      link := ⟨1, []⟩, streamer := { s.streamer with region := some { region0 with begun := false } } }) (fun t =>
      t.link == ⟨0, [.abortGone [0xC4], .regionBegun [0xC1, 0, 0, 0, 0, 0, 0, 2, 0, 1]]⟩) = true := by decide

/-! ### The management bus and the pins (5.8, 6.1, 8.1, 8.9) -/

/-- A write transfer of these bytes to the device's address, its stop condition not yet there. -/
def written (s : State) (bytes : List Byte) : State :=
  bytes.foldl (fun t b => t.bus (.written b)) (s.bus (.address s.i2cAddress false))

/-- R159: 33 bytes are acknowledged, a 34th is not, and the frame is then no command (R160). -/
theorem test_bus_overlong : (written up (List.replicate 33 0x10)).acksByte = false
    ∧ (written up (List.replicate 32 0x10)).acksByte = true
    ∧ after (busStep (.ended false) (written up (List.replicate 34 0x10))) (fun t => t.mgmt.response == [0x03]) = true := by
  decide
/-- R159: the general call and the other strap's address are not acknowledged, and no frame is taken. -/
theorem test_bus_other_address : up.acksAddress 0x00 false = false ∧ up.acksAddress 0x2D true = false
    ∧ after (busStep (.ended false) ((up.bus (.address 0x2D false)).bus (.written 0x01))) (fun t => t == up) = true := by
  decide +kernel
/-- R180: the RESET pin abandons the transfer under way, and no frame is taken at its end. -/
theorem test_bus_reset_abandons : after (exec (.resetPin false) (written up [0x60, 0x01])) (fun t =>
    t.mgmt.transfer == none && after (busStep (.ended false) (t.bus (.written 0x01))) (fun u =>
      u.mgmt.arm == none && u.mgmt.response == [0x02])) = true := by decide
/-- R181: an address byte before the end of the load is not acknowledged, and a read goes on returning BUSY. -/
theorem test_bus_across_start_up :
    let s := withLoad State.reset ⟨.startUp, .applying none⟩
    after (exec .applyGlobalSettings (written s [0x60])) (fun t =>
      after (busStep (.ended false) (t.bus (.written 0x01))) (fun u =>
        u.mgmt.arm == none && u.mgmt.response == [0x00])) = true
    ∧ after (exec .applyGlobalSettings (s.bus (.address 0x2C true))) (fun t => t.sendingByte == some 0x02) = true := by
  decide

/-- R128: with 4 MiB, MA22 and MA23 are low on a free port and during an access; the lower lines carry the address. -/
theorem test_memory_lines : (up.memLine 22, up.memLine 23, up.memLine 21) = (some false, some false, none)
    ∧ (let s := withAccess up .hostRead none 0x200004 false
      (s.memLine 2, s.memLine 3, s.memLine 21, s.memLine 22) = (some true, some false, some true, some false)) := by decide
/-- R120: the idle link, and DATA that waits for its second pixel. -/
theorem test_link_levels : (up.psel, up.pclk, up.pdo) = (some true, some false, some false)
    ∧ ((sending [] 1 0).psel, (sending [] 1 0).pclk) = (some false, some false)
    ∧ ({ up with link := ⟨1, []⟩ } : State).psel = none := by decide

/-- With no command waiting a microsecond passes (log 2). -/
theorem test_step_idles : after (step up) (fun t => t == up) = true := by decide

/-! ### What meets the hypotheses of the statements

One theorem per statement; its parts are the hypotheses of the statement's clauses, in order, each for a concrete state and
operands, at the ends of the ranges where a clause has one. -/

theorem test_meets_StepTakesFrontCommand :
    let s : State := { up with
      port := ⟨some ⟨.hostRead, none, 0, false, 6, 8⟩, .mib4, 8, 0⟩
      streamer := { up.streamer with answerTimer := some 1998 } }
    s.pending = [] ∧ s.merge.entries = [] ∧ (∀ a ∈ s.port.access, a.timer + 1 < a.limit)
    ∧ (∀ t ∈ s.streamer.answerTimer, t + 1 < s.streamer.answerLimit * 100) := by decide

theorem test_meets_FrameDecodeInvertsEncode :
    (Instr.setScroll 2 300).wellFormed = true ∧ encodeFrame (.setScroll 2 300) = some [0x14, 0x02, 0x2C, 0x01]
    ∧ decodeTransfer [0x14, 0x02, 0x2C, 0x01] false = some (.setScroll 2 300)
    ∧ Instr.setScroll 2 300 ≠ .unknownCommandFrame := by decide

theorem test_meets_ResetCommandsResetEveryBlock : marked.store.programming = none := by decide

/-- The full-length image that `writing` programs. -/
def inFlight : Programming := ⟨1, [0x0F, 0xF0] ++ List.replicate 506 0xFF⟩

theorem test_meets_ResetInterruptsProgramming :
    otpWf writing.store.otp = true ∧ writing.store.programming = some inFlight ∧ inFlight.image.length = 508
    ∧ otpRead writing.store.otp (slotAddress inFlight.slot 508) ≠ 0xFF
    ∧ otpRead writing.store.otp (slotAddress inFlight.slot 509) = 0xFF := by decide +kernel

/-- The bytes of `withGoodSlot` read as the image with its two marks set. -/
theorem good_slot_image (n : Fin 4) :
    slotImage (otpProgramAll [] (slotAddress n 0) (emptyImage ++ [0x00, 0x00])) n
      = (emptyImage ++ [0x00, 0x00]) ++ List.replicate (512 - (emptyImage ++ [0x00, 0x00]).length) 0xFF :=
  slotImage_programAll n _ (by decide +kernel)

theorem good_slot_good (n : Fin 4) :
    imageGood (slotImage (otpProgramAll [] (slotAddress n 0) (emptyImage ++ [0x00, 0x00])) n) = true := by
  rw [good_slot_image]; decide +kernel

theorem test_meets_SlotExaminationOutcomes :
    ((withLoad (withGoodSlot up 2) ⟨.startUp, .examining 2⟩).store.load = some ⟨.startUp, .examining 2⟩
      ∧ (withLoad (withGoodSlot up 2) ⟨.startUp, .examining 2⟩).heldState 2 = .written
      ∧ imageGood (slotImage (withLoad (withGoodSlot up 2) ⟨.startUp, .examining 2⟩).store.otp 2) = true)
    ∧ (State.reset.store.load = some ⟨.startUp, .examining 3⟩ ∧ State.reset.heldState 3 ≠ .written)
    ∧ ((withLoad up ⟨.softReset, .examining 0⟩).store.load = some ⟨.softReset, .examining 0⟩
      ∧ (withLoad up ⟨.softReset, .examining 0⟩).heldState 0 ≠ .written)
    ∧ ((withLoad (withHeld up 0 .written) ⟨.softReset, .examining 0⟩).heldState 0 = .written
      ∧ imageGood (slotImage (withLoad (withHeld up 0 .written) ⟨.softReset, .examining 0⟩).store.otp 0) = false)
    ∧ ((withLoad (withHeld up 3 .written) ⟨.profileLoad 3, .examining 3⟩).heldState 3 = .written
      ∧ imageGood (slotImage (withLoad (withHeld up 3 .written) ⟨.profileLoad 3, .examining 3⟩).store.otp 3) = false) := by
  refine ⟨⟨by decide, by decide, ?_⟩, by decide +kernel⟩
  simp only [withLoad, withGoodSlot]
  exact good_slot_good 2

theorem test_meets_FactoryStartUpEnds :
    (let s := withLoad State.reset ⟨.startUp, .applying none⟩;
      s.store.load = some ⟨.startUp, .applying none⟩ ∧ s.port.access = none ∧ s.merge.entries = [])
    ∧ (let s := withLoad (withSlot up (.softReset .phase7)) ⟨.softReset, .applying none⟩;
      s.store.load = some ⟨.softReset, .applying none⟩ ∧ s.port.access = none ∧ s.merge.entries = []) := by decide

/-- A load that waits to apply the image of slot 2. -/
def applyingGood : State := withLoad (withGoodSlot up 2) ⟨.profileLoad 2, .applying (some 2)⟩

theorem test_meets_ImageLoadAppliesSettings :
    (∃ g, applyingGood.store.load = some ⟨.profileLoad 2, .applying (some 2)⟩
      ∧ parseSettings (slotImage applyingGood.store.otp 2) = some g ∧ applyingGood.damage.records = []
      ∧ applyingGood.port.access = none)
    ∧ ∃ g, (withAccess applyingGood .stream none 0 true).store.load = some ⟨.profileLoad 2, .applying (some 2)⟩
      ∧ parseSettings (slotImage (withAccess applyingGood .stream none 0 true).store.otp 2) = some g
      ∧ (withAccess applyingGood .stream none 0 true).damage.records = []
      ∧ (withAccess applyingGood .stream none 0 true).port.access ≠ none := by
  have h : parseSettings (slotImage (otpProgramAll [] (slotAddress 2 0) (emptyImage ++ [0x00, 0x00])) 2)
      = some Settings.factory := by
    rw [good_slot_image]; decide +kernel
  refine ⟨⟨Settings.factory, by decide, ?_, by decide, by decide⟩, ⟨Settings.factory, by decide, ?_, by decide, by decide⟩⟩
  · simp only [applyingGood, withLoad, withGoodSlot]; exact h
  · simp only [applyingGood, withAccess, withLoad, withGoodSlot]; exact h

/-- An image whose descriptors meet the clauses of ImageLoadAppliesSettings: 0 opens, 1 is not present, 2 fails the range check,
3 the memory check, and 4 and 5 the host range check (4 passes FFFFFFFFh, 5 has the host range of 0). -/
def mixedImage : List Byte :=
  emptyImage.take 9 ++ [0x3D] ++ List.replicate 6 0 ++ imageDescriptorBytes ++ List.replicate 32 0
    ++ (0x01 :: imageDescriptorBytes.drop 1) ++ WindowValues.descriptor { imageWindow with memBase := 4194304 - 153600 + 4 }
    ++ WindowValues.descriptor { imageWindow with hostBase := 0xFFFFF000 } ++ imageDescriptorBytes ++ List.replicate 298 0

/-- The clauses over descriptors, for the image in slot 3 and the windows as they are opened. -/
theorem test_meets_ImageLoadAppliesSettings_clauses :
    (slotImage (otpProgramAll [] (slotAddress 3 0) mixedImage) 3
        = mixedImage ++ List.replicate (512 - mixedImage.length) 0xFF)
    ∧ parseSettings mixedImage = some Settings.factory ∧ imageDescriptor mixedImage 1 = none
    ∧ (imageDescriptor mixedImage 0 = some imageDescriptorBytes
      ∧ (parseDescriptor imageDescriptorBytes).rangeCheck = some imageWindow
      ∧ imageWindow.memBase + imageWindow.height * imageWindow.pitch * 4 ≤ MemSize.bytes .mib4
      ∧ imageWindow.hostBase + imageWindow.hostSpan ≤ 4294967296
      ∧ ∀ m : Fin 8, ∀ x ∈ (up.window m).values?, imageWindow.apart x = true)
    ∧ (∃ d, imageDescriptor mixedImage 2 = some d ∧ (parseDescriptor d).rangeCheck = none)
    ∧ (∃ d v, imageDescriptor mixedImage 3 = some d ∧ (parseDescriptor d).rangeCheck = some v
      ∧ MemSize.bytes .mib4 < v.memBase + v.height * v.pitch * 4)
    ∧ (∃ d v, imageDescriptor mixedImage 4 = some d ∧ (parseDescriptor d).rangeCheck = some v
      ∧ v.memBase + v.height * v.pitch * 4 ≤ MemSize.bytes .mib4 ∧ 4294967296 < v.hostBase + v.hostSpan)
    ∧ (imageDescriptor mixedImage 5 = some imageDescriptorBytes
      ∧ imageWindow ∈ ((withWindow up 0 imageWindow).window 0).values? ∧ imageWindow.apart imageWindow = false) :=
  ⟨slotImage_programAll 3 _ (by decide +kernel), by decide +kernel, by decide +kernel, by decide +kernel,
    ⟨_, rfl, by decide +kernel⟩, ⟨_, { imageWindow with memBase := 4194304 - 153600 + 4 }, rfl, by decide +kernel⟩,
    ⟨_, { imageWindow with hostBase := 0xFFFFF000 }, rfl, by decide +kernel⟩, by decide +kernel⟩

theorem test_meets_BadFramesAndStartUp :
    up.ready ∧ Instr.isFrame .brokenFrame = true ∧ Instr.isFrame (.profileLoad 0) = true
    ∧ State.reset.startingUp = true ∧ ((0x2D : BitVec 7) ≠ if up.mgmt.asel = true then 0x2D else 0x2C)
    ∧ up.mgmt.transfer = none
    ∧ (up.bus (.address 0x2C true)).mgmt.transfer = some (.read [0x00] 0) := by decide

theorem test_meets_RefusedFrameChangesNoBlock :
    ∃ t, Instr.isFrame (.openWindow 8) = true ∧ up.ready ∧ exec (.openWindow 8) up = .next t
      ∧ t.mgmt.response.head? = some 0x03 := ⟨_, rfl, rfl, rfl, rfl⟩

theorem test_meets_ArmAndResponseOwners :
    (∃ t, Instr.isFrame (.profileArm 3) = true ∧ up.ready ∧ exec (.profileArm 3) up = .next t)
    ∧ (∃ t, Instr.isFrame .sync = false ∧ exec .sync up = .next t ∧ (∀ asel, Instr.sync ≠ .powerOn asel ∧ Instr.sync ≠ .resetPin asel))
    ∧ ∃ t, exec .applyGlobalSettings (withLoad up ⟨.softReset, .applying none⟩) = .next t
      ∧ (withLoad up ⟨.softReset, .applying none⟩).ready :=
  ⟨⟨_, rfl, rfl, rfl⟩, ⟨_, rfl, rfl, by decide⟩, ⟨_, rfl, rfl⟩⟩

theorem test_meets_ReportingCommands :
    up.ready ∧ 8 ≤ (8 : Byte).toNat ∧ (7 : Byte).toNat = (7 : Fin 8).val ∧ up.window 7 = .unused
    ∧ (w0up.ready ∧ (0 : Byte).toNat = (0 : Fin 8).val ∧ w0up.window 0 = .active (win 0x10000 0x4000))
    ∧ (closed.ready ∧ (2 : Byte).toNat = (2 : Fin 8).val ∧ closed.window 2 = .draining (win 0x40000000 0x9000)
      ∧ closed.mgmt.slot = some (.closeWindow 2))
    ∧ up.mgmt.slot = none ∧ (withSlot up (.softReset .phase7)).mgmt.slot = some (.softReset .phase7)
    ∧ (withSlot up (.flush none [4])).mgmt.slot = some (.flush none [4])
    ∧ (withSlot up (.flush (some 7) [])).mgmt.slot = some (.flush (some 7) [])
    ∧ (withSlot up (.profileWrite 3)).mgmt.slot = some (.profileWrite 3)
    ∧ (withSlot up (.profileLoad 0)).mgmt.slot = some (.profileLoad 0)
    ∧ up.mgmt.arm = none ∧ (withArm up 3).mgmt.arm = some 3 ∧ up.mgmt.loadOutcome = none
    ∧ (let s : State := { up with mgmt := { up.mgmt with loadOutcome := some 0 } }; s.mgmt.loadOutcome = some 0) := by decide

theorem test_meets_SoftResetTaken :
    ((withSlot up (.profileWrite 3)).ready ∧ (withSlot up (.profileWrite 3)).mgmt.slot = some (.profileWrite 3))
    ∧ ((withSlot up (.softReset .phase2)).mgmt.slot = some (.softReset .phase2))
    ∧ (reading.ready ∧ reading.mgmt.slot = none ∧ reading.host.quiet = false ∧ DrainChosen reading)
    ∧ (closed.mgmt.slot = some (.closeWindow 2) ∧ closed.host.quiet = false ∧ DrainChosen closed)
    ∧ (twoEntries.ready ∧ twoEntries.mgmt.slot = none ∧ twoEntries.host.quiet = true ∧ twoEntries.merge.entries ≠ [])
    ∧ ((withSlot up (.profileLoad 0)).mgmt.slot = some (.profileLoad 0) ∧ (withSlot up (.profileLoad 0)).host.quiet = true
      ∧ (withSlot up (.profileLoad 0)).merge.entries = [] ∧ (withSlot up (.profileLoad 0)).streamer.region = none)
    ∧ ((streaming .sending .free).ready ∧ (streaming .sending .free).mgmt.slot = none
      ∧ (streaming .sending .free).host.quiet = true ∧ (streaming .sending .free).merge.entries = []
      ∧ (streaming .sending .free).streamer.region.isSome) := by decide +kernel

theorem test_meets_SoftResetPhasesEnd :
    (let s := withSlot twoEntries (.softReset .phase2);
      s.mgmt.slot = some (.softReset .phase2) ∧ s.host.quiet = true ∧ s.merge.entries ≠ [])
    ∧ (let s := withSlot up (.softReset .phase2)
      s.host.quiet = true ∧ s.merge.entries = [] ∧ s.streamer.region = none)
    ∧ (let s := withSlot (streaming .sending .free) (.softReset .phase2)
      s.host.quiet = true ∧ s.merge.entries = [] ∧ s.streamer.region.isSome)
    ∧ (let s := withSlot reading (.softReset .phase2)
      s.mgmt.slot = some (.softReset .phase2) ∧ s.host.quiet = false ∧ DrainChosen s)
    ∧ (up.mgmt.slot ≠ some (.softReset .phase2) ∧ up.mgmt.slot ≠ some (.softReset .phase3))
    ∧ (let s := withSlot up (.softReset .phase3)
      s.mgmt.slot = some (.softReset .phase3) ∧ s.merge.entries = [] ∧ s.streamer.region = none)
    ∧ (let s := withSlot (streaming .awaitAnswer .gated) (.softReset .phase3)
      s.mgmt.slot = some (.softReset .phase3) ∧ s.merge.entries = [] ∧ s.streamer.region.isSome)
    ∧ (let s := withSlot twoEntries (.softReset .phase3)
      s.mgmt.slot = some (.softReset .phase3) ∧ s.merge.entries ≠ []) := by decide +kernel

/-- The first byte of the descriptor of 10.4 raised by one. -/
def badDescriptor : List Byte := 0x01 :: imageDescriptorBytes.drop 1

theorem test_meets_StageAndOpenWindow :
    staged.ready ∧ staged.resetOrLoad = false
    ∧ (imageDescriptorBytes.length = 32 ∧ sumBytes imageDescriptorBytes % 256 = 0)
    ∧ (badDescriptor.length = 32 ∧ sumBytes badDescriptor % 256 ≠ 0)
    ∧ staged.table.staging = some imageDescriptorBytes ∧ staged.window 7 = .unused
    ∧ (parseDescriptor imageDescriptorBytes).rangeCheck = some imageWindow
    ∧ imageWindow.memBase + imageWindow.height * imageWindow.pitch * 4 ≤ staged.port.memSize.bytes
    ∧ imageWindow.hostBase + imageWindow.hostSpan ≤ 4294967296
    ∧ (∀ m : Fin 8, ∀ w ∈ (staged.window m).values?, imageWindow.apart w = true) := by decide +kernel

/-- The descriptor of a window whose host range passes FFFFFFFFh (R25). -/
def topDescriptor : List Byte := WindowValues.descriptor { imageWindow with hostBase := 0xFFFFF000 }

/-- The descriptor of a window whose footprint passes the memory size by one word (R24). -/
def farDescriptor : List Byte := WindowValues.descriptor { imageWindow with memBase := 4194304 - 153600 + 4 }

theorem test_meets_OpenWindowCheckOrder :
    up.ready ∧ 8 ≤ (8 : Byte).toNat ∧ (7 : Byte).toNat < 8
    ∧ (let s := withSlot staged (.softReset .phase7); s.ready ∧ s.resetOrLoad = true)
    ∧ ((7 : Byte).toNat = (7 : Fin 8).val ∧ staged.resetOrLoad = false)
    ∧ (withWindow staged 7 (win 0 0)).window 7 ≠ .unused
    ∧ (up.window 7 = .unused ∧ up.table.staging = none)
    ∧ (let s : State := { up with table := { up.table with staging := some badDescriptor } }
      s.window 7 = .unused ∧ s.table.staging = some badDescriptor ∧ (parseDescriptor badDescriptor).rangeCheck = none)
    ∧ (∃ v, (parseDescriptor farDescriptor).rangeCheck = some v
      ∧ up.port.memSize.bytes < v.memBase + v.height * v.pitch * 4)
    ∧ (∃ v, (parseDescriptor topDescriptor).rangeCheck = some v
      ∧ v.memBase + v.height * v.pitch * 4 ≤ up.port.memSize.bytes ∧ 4294967296 < v.hostBase + v.hostSpan)
    ∧ (let s := withWindow staged 0 (win 0x10025000 0)
      s.window 7 = .unused ∧ s.table.staging = some imageDescriptorBytes ∧ win 0x10025000 0 ∈ (s.window 0).values?
      ∧ imageWindow.apart (win 0x10025000 0) = false) := by
  refine ⟨by decide, by decide, by decide, by decide, by decide, by decide, by decide, by decide +kernel,
    ⟨{ imageWindow with memBase := 4194304 - 153600 + 4 }, by decide +kernel⟩,
    ⟨{ imageWindow with hostBase := 0xFFFFF000 }, by decide +kernel⟩, by decide +kernel⟩

theorem test_meets_CloseWindowTaken :
    (let s := withSlot w0up (.closeWindow 7);
      s.mgmt.slot = some (.closeWindow 7) ∧ (∀ e ∈ s.merge.entries, e.creator ≠ .window 7) ∧ s.host.writeBeatOf 7 = false)
    ∧ (closed.mgmt.slot = some (.closeWindow 2) ∧ (∃ e ∈ closed.merge.entries, e.creator = .window 2)
      ∧ closed.host.writeBeatOf 2 = true)
    ∧ (up.ready ∧ 8 ≤ (8 : Byte).toNat ∧ (7 : Byte).toNat < 8 ∧ (withSlot up (.closeWindow 7)).mgmt.slot.isSome)
    ∧ ((7 : Byte).toNat = (7 : Fin 8).val ∧ up.mgmt.slot = none ∧ up.window 7 = .unused)
    ∧ (let s := up.setWindow 7 (.draining (win 0 0)); s.mgmt.slot = none ∧ s.window 7 = .draining (win 0 0))
    ∧ (twoEntries.window 0 = .active (win 0x10000 0x4000) ∧ twoEntries.regionOf 0 = false
      ∧ twoEntries.drainComplete 0 = false)
    ∧ (w0up.window 0 = .active (win 0x10000 0x4000) ∧ w0up.regionOf 0 = false ∧ w0up.drainComplete 0 = true) := by
  decide

theorem test_meets_CloseAbortsRegion :
    (∃ r, closing.ready ∧ (2 : Byte).toNat = (2 : Fin 8).val ∧ closing.mgmt.slot = none
      ∧ closing.window 2 = .active (win 0x40000000 0x9000) ∧ closing.streamer.region = some r ∧ r.window = 2
      ∧ closing.streamer.mode = .free ∧ closing.drainComplete 2 = false)
    ∧ (∃ r v, scrolling.ready ∧ (6 : Byte).toNat = (6 : Fin 8).val ∧ scrolling.mgmt.slot = none
      ∧ scrolling.window 6 = .active v ∧ scrolling.streamer.region = some r ∧ r.window = 6
      ∧ scrolling.streamer.mode = .gated ∧ scrolling.streamer.passOpen = true)
    ∧ (∃ r v, (streaming .sending .gated).ready ∧ (streaming .sending .gated).mgmt.slot = none
      ∧ (streaming .sending .gated).window 0 = .active v ∧ (streaming .sending .gated).streamer.region = some r
      ∧ r.window = 0 ∧ (streaming .sending .gated).streamer.mode = .gated
      ∧ (streaming .sending .gated).streamer.passOpen = false ∧ (streaming .sending .gated).drainComplete 0 = true) :=
  ⟨⟨_, rfl, rfl, rfl, rfl, rfl, rfl, rfl, by decide⟩, ⟨_, _, rfl, rfl, rfl, rfl, rfl, rfl, rfl, rfl⟩,
    ⟨_, _, rfl, rfl, rfl, rfl, rfl, rfl, rfl, rfl⟩⟩

/-- R28, R30, R110: with nothing left to drain the window is UNUSED at once, its region's read in flight abandoned and its ABORT
owed. -/
theorem test_close_ends_at_once : after
    (exec (.closeWindow 0) (withAccess (streaming .sending .gated) .stream none 0x4000 false)) (fun t =>
      t.mgmt.response == [0x01] && t.window 0 == .unused && t.mgmt.slot == none && t.link.abortsOwed == 1
      && t.port.access.map Access.abandoned == some true && t.streamer.state == .waitSync
      && t.events.records == [⟨0, .opDone 0x12 .done, false⟩]) = true := by decide

theorem test_meets_DescriptorRoundTrip : imageWindow.sound := by decide

/-- Window 0 untracked, and tracked with one PENDING record. -/
def untracked : State := withWindow up 0 { win 0x10000 0x4000 with tracking := false }
def damaged : State := withRecords w0up [⟨0, ⟨0, 0, 1, 1⟩, .pending, false, 1⟩]

theorem test_meets_SetScrollEffects :
    w0up.ready ∧ w0up.resetOrLoad = false ∧ (0 : Byte).toNat = (0 : Fin 8).val
    ∧ w0up.window 0 = .active (win 0x10000 0x4000)
    ∧ (win 0x10000 0x4000).height ≤ (4 : BitVec 16).toNat
    ∧ ((3 : BitVec 16).toNat < (win 0x10000 0x4000).height ∧ (0 : BitVec 16).toNat = (win 0x10000 0x4000).scroll
      ∧ (3 : BitVec 16).toNat ≠ (win 0x10000 0x4000).scroll)
    ∧ untracked.window 0 = .active { win 0x10000 0x4000 with tracking := false }
    ∧ ((win 0x10000 0x4000).tracking = true ∧ damaged.window 0 = .active (win 0x10000 0x4000)
      ∧ damaged.regionOf 0 = false ∧ damaged.damage.records.any (fun r => r.window == 0) = true)
    ∧ ((streaming .sending .free).window 0 = .active (win 0x10000 0x4000) ∧ (streaming .sending .free).regionOf 0 = true
      ∧ (streaming .sending .free).damage.records.any (fun r => r.window == 0) = true)
    ∧ (w0up.regionOf 0 = false ∧ w0up.damage.records.any (fun r => r.window == 0) = false)
    ∧ (∃ r, damaged.damage.records = [] ++ r :: [] ∧ r.window = 0)
    ∧ (∃ r after, scrolling.damage.records = [] ++ r :: after ∧ r.window = 6 ∧ scrolling.regionOf 6 = true
      ∧ ∃ v, scrolling.window 6 = .active v ∧ v.tracking = true ∧ (1 : BitVec 16).toNat < v.height
        ∧ (1 : BitVec 16).toNat ≠ v.scroll) :=
  ⟨by decide, by decide, by decide, by decide, by decide, by decide, by decide, by decide, by decide, by decide,
    ⟨_, rfl, rfl⟩, ⟨_, _, rfl, rfl, rfl, _, rfl, rfl, by decide, by decide⟩⟩

theorem test_meets_SetKeyClipAccess :
    w0up.ready ∧ w0up.resetOrLoad = false ∧ (0 : Byte).toNat = (0 : Fin 8).val
    ∧ w0up.window 0 = .active (win 0x10000 0x4000)
    ∧ (65535 : Word).toNat ≤ (win 0x10000 0x4000).hostFormat.maxKey
    ∧ (let c : PackedRect := ⟨0, 0, 7, 3⟩
      c.x0.toNat ≤ c.x1.toNat ∧ c.x1.toNat < (win 0x10000 0x4000).width ∧ c.y0.toNat ≤ c.y1.toNat
      ∧ c.y1.toNat < (win 0x10000 0x4000).height) := by decide

theorem test_meets_ActiveWindowCheckOrder :
    up.ready ∧ 8 ≤ (8 : Byte).toNat ∧ (7 : Byte).toNat < 8 ∧ (withSlot up (.profileLoad 0)).resetOrLoad = true
    ∧ (up.resetOrLoad = false ∧ up.window 7 = .unused)
    ∧ (up.setWindow 7 (.draining (win 0 0))).window 7 = .draining (win 0 0)
    ∧ w0up.window 0 = .active (win 0x10000 0x4000)
    ∧ (win 0x10000 0x4000).hostFormat.maxKey < (0x10000 : Word).toNat
    ∧ (unpackRect ⟨0, 0, 8, 3⟩).within (win 0x10000 0x4000).width (win 0x10000 0x4000).height = false
    ∧ 2 < (3 : Byte).toNat ∧ (win 0x10000 0x4000).tracking = true
    ∧ ({ win 0x10000 0x4000 with tracking := false } : WindowValues).tracking = false := by decide

theorem test_meets_FlushMarksAndCompletes :
    up.ready ∧ (8 ≤ (8 : Byte).toNat ∧ (8 : Byte) ≠ 0xFF) ∧ ((7 : Byte).toNat < 8 ∧ (withSlot up (.profileWrite 0)).mgmt.slot.isSome)
    ∧ (twoEntries.mgmt.slot = none ∧ twoEntries.merge.entries.any (fun e => (some 0 : Option (Fin 8)).all fun n => e.creator == .window n) = true)
    ∧ (twoEntries.merge.entries.any (fun e => (some 7 : Option (Fin 8)).all fun n => e.creator == .window n) = false
      ∧ DrainChosen twoEntries)
    ∧ (withSlot up (.flush none [])).mgmt.slot = some (.flush none [])
    ∧ (withSlot up (.flush none [4])).mgmt.slot = some (.flush none (4 :: [])) := by decide +kernel

theorem test_meets_QueueConfigApplies :
    up.ready ∧ 1 ≤ (1 : Byte).toNat ∧ (16 : Byte).toNat ≤ 16 ∧ (0 : Byte).toNat = 0 ∧ 16 < (17 : Byte).toNat := by decide

theorem test_meets_EntryDueTakesDrainSlot :
    (twoEntries.merge.entry? (0x2000 : BitVec 24).toNat = some e2000 ∧ e2000.state = .collecting
      ∧ twoEntries.merge.drain? = none ∧ twoEntries.urgent = false)
    ∧ (let s : State := { twoEntries with merge := { twoEntries.merge with highWater := 2 } }
      s.merge.entry? (0x2000 : BitVec 24).toNat = some e2000 ∧ s.merge.drain? = none ∧ s.urgent = true
      ∧ (s.merge.entries = [] ++ entry 0x4000 e2000.lanes (.window 0) :: [e2000]))
    ∧ (let s := withEntries up [{ e2000 with age := 15 }, { e2000 with word := 4, age := 16 }]
      s.merge.drain? = none ∧ s.urgent = false
      ∧ s.merge.entries = [{ e2000 with age := 15 }] ++ { e2000 with word := 4, age := 16 } :: []
      ∧ (s.merge.entries.map fun e => decide (s.merge.linger ≤ e.age)) = [false, true])
    ∧ (let s := withEntries up [{ e2000 with word := 0, state := .fetching }, e2000]
      s.merge.entry? (0x2000 : BitVec 24).toNat = some e2000 ∧ s.merge.drain?.isSome) := by decide

/-- Fifteen entries, and a lane set of three other words. -/
def fifteen : List Entry := (List.range 15).map fun i => entry (4 * i) e2000.lanes .bypass
def manyWords : List LaneWrite := [⟨0x4000, 0, 1⟩, ⟨0x4004, 0, 1⟩, ⟨0x4008, 0, 1⟩]

/-- R54: urgent at the high-water and not one below it, while a beat lacks room, and in phase 3. -/
theorem test_urgent :
    let waiting : State := withRequests (withEntries up fifteen) [writeOf 0x4000 0 15] (some (.write .bypass manyWords none))
    let calm (s : State) : State := { s with merge := { s.merge with highWater := 16 } }
    ((withEntries up (fifteen.take 12)).urgent, (withEntries up (fifteen.take 11)).urgent) = (true, false)
    ∧ ((calm waiting).urgent, (calm (withEntries up fifteen)).urgent) = (true, false)
    ∧ ((withSlot up (.softReset .phase3)).urgent, (withSlot up (.softReset .phase2)).urgent) = (true, false) := by decide

theorem test_meets_TakenLanesAreRead :
    let l : List LaneWrite := [⟨0x4000, 7, 1⟩, ⟨0x4004, 0, 2⟩]
    (l.map fun l => (l.word, l.lane)).Nodup ∧ (∀ x ∈ l, x.word ≠ 0x4000 ∨ x.lane ≠ 0) ∧ ⟨0x4000, 7, 1⟩ ∈ l
    ∧ (twoEntries.merge.entries.map Entry.word).Nodup
    ∧ (twoEntries.merge.entries = [] ++ entry 0x4000 e2000.lanes (.window 0) :: [e2000])
    ∧ (∀ e ∈ twoEntries.merge.entries, e.word ≠ 0x4004) := by decide

/-- R50, R51, R57: a FETCHING entry takes its last lane before its grant and becomes PENDING_WRITE in its place with its age and
marks; the words without an entry get theirs behind it in increasing order, of the set's creator. -/
theorem test_take_set :
    let e : Entry := { e2000 with
      lanes := lanes (some 4) (some 3) (some 2) (some 1) (some 0) (some 0) (some 0) none, age := 9, state := .fetching }
    let q : MergeQueue := ⟨[e, entry 0x3000 e2000.lanes (.window 1)], 12, 16⟩
    (q.takeSet (.window 5) true false [⟨0x2008, 0, 1⟩, ⟨0x2000, 7, 6⟩, ⟨0x2004, 3, 2⟩]).entries
      = [{ e with lanes := lanes (some 4) (some 3) (some 2) (some 1) (some 0) (some 0) (some 0) (some 6), state := .pendingWrite },
         entry 0x3000 e2000.lanes (.window 1),
         { entry 0x2004 (lanes none none none (some 2) none none none none) (.window 5) with flushMark := true },
         { entry 0x2008 (lanes (some 1) none none none none none none none) (.window 5) with flushMark := true }]
    ∧ (q.takeSet (.window 5) true true [⟨0x2000, 7, 6⟩]).entries.map Entry.state = [.fetching, .collecting] := by
  decide +kernel

theorem test_meets_LaneArrivalTakesSet :
    (∃ c l r, straddling.host.action = some (.write c l r) ∧ straddling.merge.canTake l = true ∧ straddling.mgmt.slot = none)
    ∧ (∃ c l r, (withSlot straddling (.softReset .phase2)).host.action = some (.write c l r)
      ∧ (withSlot straddling (.softReset .phase2)).merge.canTake l = true)
    ∧ (∃ c l r, closing.host.action = some (.write c l r) ∧ closing.merge.canTake l = false)
    ∧ ((twoEntries.merge.entries.map Entry.word).Nodup ∧ twoEntries.merge.lacks manyWords [0x4004, 0x4008]) := by
  refine ⟨⟨_, _, _, rfl, by decide, rfl⟩, ⟨_, _, _, rfl, by decide⟩, ⟨_, _, _, rfl, by decide⟩, by decide, by decide,
    fun a => ?_⟩
  simp [twoEntries, withEntries, manyWords, entry, e2000]
  omega

/-- The last beat taken in phase 2 ends it, and the entries it made are marked and drained (R169). -/
theorem test_lane_arrival_ends_phase2 : after
    (exec .laneArrival { withSlot straddling (.softReset .phase2) with
      host := { straddling.host with state := .refusing } }) (fun t =>
      t.mgmt.slot == some (.softReset .phase3) && t.merge.entries.map Entry.flushMark == [true, true]
      && t.merge.entries.map Entry.state == [.fetching, .collecting]) = true := by decide

theorem test_meets_DamageCommands :
    up.ready ∧ 8 ≤ (8 : Byte).toNat ∧ ((7 : Byte).toNat < 8 ∧ (withSlot up (.softReset .phase2)).resetOrLoad = true)
    ∧ ((7 : Byte).toNat = (7 : Fin 8).val ∧ up.resetOrLoad = false)
    ∧ (w0up.window 0 = .active (win 0x10000 0x4000) ∧ (win 0x10000 0x4000).tracking = true ∧ w0up.streamer.state ≠ .idle)
    ∧ ((withStream w0up .idle .free).streamer.state = .idle
      ∧ (withStream w0up .idle .free).damage.records.find? Record.isPending = none)
    ∧ ((withStream stalled .idle .free).streamer.state = .idle
      ∧ (withStream stalled .idle .free).damage.records.find? Record.isPending = some ⟨1, ⟨3, 0, 4, 0⟩, .pending, false, 1⟩)
    ∧ ((stalled.damage.records.map Record.touch).Nodup ∧ ⟨1, ⟨4, 0, 4, 0⟩, .pending, false, 2⟩ ∈ stalled.damage.records)
    ∧ (let r : PackedRect := ⟨0, 0, 7, 3⟩
      r.x0.toNat ≤ r.x1.toNat ∧ r.x1.toNat < (win 0x10000 0x4000).width ∧ r.y0.toNat ≤ r.y1.toNat
      ∧ r.y1.toNat < (win 0x10000 0x4000).height) := by decide

/-- The PENDING records of a window, as the insertion sees them. -/
def mine (l : DamageList) (w : Fin 8) : List Record := l.records.filter fun r => r.state == .pending && r.window == w

theorem test_meets_InsertionSteps :
    (mine damaged.damage 0).any (fun r => r.rect.contains ⟨1, 1, 1, 1⟩) = true
    ∧ ((mine damaged.damage 0).any (fun r => r.rect.contains ⟨2, 0, 2, 0⟩) = false
      ∧ damaged.damage.tail? 0 = some ⟨0, ⟨0, 0, 1, 1⟩, .pending, false, 1⟩ ∧ (⟨0, 0, 1, 1⟩ : Rect).adjacent ⟨2, 0, 2, 0⟩ = true)
    ∧ ((mine damaged.damage 0).any (fun r => r.rect.contains ⟨3, 0, 3, 0⟩) = false
      ∧ (⟨0, 0, 1, 1⟩ : Rect).adjacent ⟨3, 0, 3, 0⟩ = false ∧ damaged.damage.records.length < 24)
    ∧ ((mine fullList.damage 1).any (fun r => r.rect.contains ⟨5, 0, 5, 0⟩) = false
      ∧ (fullList.damage.tail? 1).any (fun t => t.rect.adjacent ⟨5, 0, 5, 0⟩) = false ∧ 24 ≤ fullList.damage.records.length
      ∧ 2 ≤ (mine fullList.damage 1).length
      ∧ ∃ r, fullList.damage.records = fullList.damage.records.take 11 ++ r :: fullList.damage.records.drop 12
        ∧ (∀ p ∈ fullList.damage.records.take 11, p.pendingOf 1 = false) ∧ r.pendingOf 1 = true)
    ∧ (fullList.damage.tail? 3 = none ∧ (mine fullList.damage 3).length < 2) :=
  ⟨by decide, by decide, by decide, ⟨by decide, by decide, by decide, by decide, ⟨_, rfl, by decide, by decide⟩⟩, by decide⟩

/-- R81: both records of a window with marks and rectangles apart become one, at the earliest place, marked, and newest. -/
theorem test_collapse :
    let rest := (List.range 22).map fun i => (⟨1, ⟨i, 0, i, 0⟩, .streaming, false, i⟩ : Record)
    let l : DamageList := ⟨⟨0, ⟨0, 0, 0, 0⟩, .pending, false, 50⟩ :: rest ++ [⟨0, ⟨9, 2, 9, 2⟩, .pending, true, 51⟩], 60⟩
    l.insert 0 ⟨4, 5, 4, 5⟩ = (⟨⟨0, ⟨0, 0, 9, 5⟩, .pending, true, 60⟩ :: rest, 61⟩, some 0) := by decide

theorem test_meets_InsertionLosesNoDamage :
    (∃ r ∈ damaged.damage.records, r.window = 0 ∧ r.rect.holds 1 1 = true) ∧ (⟨5, 0, 5, 0⟩ : Rect).holds 5 0 = true := by decide

theorem test_meets_StreamModeChanges :
    up.ready ∧ 2 < (3 : Byte).toNat ∧ ((2 : Byte).toNat ≤ 2 ∧ (withSlot up (.profileLoad 3)).resetOrLoad = true)
    ∧ (up.resetOrLoad = false ∧ up.streamer.region = none ∧ up.streamer.state = .off)
    ∧ ((streaming .sending .gated).streamer.region = some region0 ∧ (streaming .sending .gated).streamer.state ≠ .off
      ∧ (streaming .sending .gated).streamer.state ≠ .waitSync ∧ (streaming .sending .gated).streamer.state ≠ .idle)
    ∧ (withStream stalled .waitSync .gated).streamer.state = .waitSync ∧ (withStream up .idle .free).streamer.state = .idle
    ∧ (up.damage.records.find? Record.isPending = none)
    ∧ (withStream stalled .waitSync .gated).damage.records.find? Record.isPending
      = some ⟨1, ⟨3, 0, 4, 0⟩, .pending, false, 1⟩ := by decide

theorem test_meets_StreamConfigAndResume :
    up.ready ∧ 1 < (2 : Byte).toNat ∧ (0 : Byte).toNat = 0 ∧ 3 < (4 : Byte).toNat
    ∧ ((1 : Byte).toNat ≤ 1 ∧ (255 : Byte).toNat ≠ 0 ∧ (3 : Byte).toNat ≤ 3)
    ∧ (withSlot up (.softReset .phase7)).resetOrLoad = true ∧ up.resetOrLoad = false
    ∧ stalled.streamer.state ≠ .off ∧ up.streamer.state = .off ∧ up.streamer.state ≠ .stalled
    ∧ ((withStream stalled .stalled .gated).streamer.state = .stalled ∧ (withStream stalled .stalled .gated).streamer.mode = .gated)
    ∧ (let s := withRecords stalled []
      s.streamer.state = .stalled ∧ s.streamer.mode = .free ∧ s.damage.records.find? Record.isPending = none)
    ∧ (stalled.streamer.state = .stalled ∧ stalled.streamer.mode = .free
      ∧ stalled.damage.records.find? Record.isPending = some ⟨1, ⟨3, 0, 4, 0⟩, .pending, false, 1⟩) := by decide

theorem test_meets_LinkMessagesGoOut :
    (∃ r, (sending [0x07E0] 1 0x00F8).streamer.state = .sending ∧ (sending [0x07E0] 1 0x00F8).streamer.region = some r
      ∧ r.begun = true ∧ r.ready = 0x07E0 :: [])
    ∧ (∃ r, (sending [] 2 0x01DF).streamer.state = .sending ∧ (sending [] 2 0x01DF).streamer.region = some r
      ∧ r.begun = true ∧ r.sent = (r.rect.x1 - r.rect.x0 + 1) * (r.rect.y1 - r.rect.y0 + 1))
    ∧ (let s : State := { up with link := ⟨1, []⟩ }; s.link.abortsOwed = 0 + 1 ∧ s.streamer.region = none)
    ∧ (let s : State := { streaming .sending .free with link := ⟨2, []⟩ }; s.link.abortsOwed = 1 + 1 ∧ (1 : Nat) ≠ 0)
    ∧ (∃ r, r.begun = false ∧ (let s : State := { streaming .sending .free with
        link := ⟨1, []⟩, streamer := { (streaming .sending .free).streamer with region := some r } }
      s.link.abortsOwed = 1 ∧ s.streamer.region = some r)) :=
  ⟨⟨_, rfl, rfl, rfl, rfl⟩, ⟨_, rfl, rfl, rfl, rfl⟩, ⟨rfl, rfl⟩, ⟨rfl, by decide⟩, ⟨{ region0 with begun := false }, rfl, rfl, rfl⟩⟩

/-- The region of `streaming` in AWAIT_ANSWER with a further record PENDING in this mode, marked or not, and the pass open or
not. -/
def answered (m : StreamMode) (mark pass : Bool) : State :=
  let s := streaming .awaitAnswer m
  { s with
    damage := ⟨s.damage.records ++ [⟨0, ⟨3, 3, 3, 3⟩, .pending, mark, 2⟩], 3⟩
    streamer := { s.streamer with passOpen := pass } }

theorem test_meets_PanelAnswers :
    stalled.streamer.state ≠ .awaitAnswer ∧ (streaming .awaitAnswer .free).streamer.state = .awaitAnswer
    ∧ ((streaming .awaitAnswer .free).damage.records.filter fun q => q.state != .streaming).find? Record.isPending = none
    ∧ ((answered .free false false).damage.records.filter fun q => q.state != .streaming).find? Record.isPending
      = some ⟨0, ⟨3, 3, 3, 3⟩, .pending, false, 2⟩
    ∧ ((answered .gated true true).streamer.passOpen = true ∧
      ((answered .gated true true).damage.records.filter fun q => q.state != .streaming).find? Record.isMarked
        = some ⟨0, ⟨3, 3, 3, 3⟩, .pending, true, 2⟩)
    ∧ ((answered .gated false true).damage.records.filter fun q => q.state != .streaming).find? Record.isMarked = none
    ∧ ((answered .gated false false).streamer.mode = .gated ∧ (answered .gated false false).streamer.passOpen = false)
    ∧ ((streaming .awaitAnswer .free).streamer.region = some region0 ∧ (streaming .awaitAnswer .free).link.abortsOwed = 0
      ∧ (streaming .awaitAnswer .free).streamer.retriesUsed < (streaming .awaitAnswer .free).streamer.retries)
    ∧ lastAttempt.streamer.retries ≤ lastAttempt.streamer.retriesUsed := by decide

theorem test_meets_SyncOpensPass :
    stalled.streamer.state ≠ .waitSync
    ∧ ((withStream up .waitSync .gated).streamer.state = .waitSync
      ∧ (withStream up .waitSync .gated).damage.records.find? Record.isPending = none)
    ∧ ((withStream stalled .waitSync .gated).streamer.state = .waitSync
      ∧ (withStream stalled .waitSync .gated).damage.records.find? Record.isPending
        = some ⟨1, ⟨3, 0, 4, 0⟩, .pending, false, 1⟩) := by decide

theorem test_meets_EventPosting :
    (sixteen.events.records.take 15).length < 16 ∧ 16 ≤ sixteen.events.records.length := by decide

theorem test_meets_EventCommands : up.ready ∧ 128 ≤ (128 : Byte).toNat ∧ (127 : Byte).toNat < 128 := by decide

theorem test_meets_ProfileArmWriteRetire :
    up.ready ∧ 4 ≤ (4 : Byte).toNat ∧ (3 : Byte).toNat = (3 : Fin 4).val ∧ up.mgmt.arm = none
    ∧ ((withArm up 3).mgmt.arm = some 3 ∧ (withArm up 3).mgmt.slot = none ∧ (withArm up 3).heldState 3 = .blank)
    ∧ ((withSlot (withArm up 3) (.flush none [])).mgmt.arm = some 3
      ∧ (withSlot (withArm up 3) (.flush none [])).mgmt.slot.isSome)
    ∧ (withArm (withHeld up 3 .retired) 3).heldState 3 ≠ .blank
    ∧ (withSlot (withArm up 3) (.profileWrite 0)).mgmt.slot = some (.profileWrite 0)
    ∧ (withSlot (withArm up 3) (.profileLoad 0)).mgmt.slot = some (.profileLoad 0)
    ∧ (withSlot (withArm up 3) (.softReset .phase2)).mgmt.slot = some (.softReset .phase2)
    ∧ ((withArm up 3).storeBusy = false ∧ (withArm up 3).heldState 3 ≠ .written)
    ∧ (withArm (withHeld up 3 .written) 3).heldState 3 = .written := by decide

theorem test_meets_CapturedImageIsGood :
    let s := withWindow up 0 imageWindow
    TableSound s ∧ 1 ≤ s.port.waitLimit ∧ s.port.waitLimit ≤ 64 ∧ 1 ≤ s.merge.highWater ∧ s.merge.highWater ≤ 16
    ∧ s.merge.linger ≤ 255 ∧ 1 ≤ s.streamer.answerLimit ∧ s.streamer.answerLimit ≤ 255 ∧ s.streamer.retries ≤ 3 := by decide

theorem test_meets_ProgrammingEndOutcomes :
    otpWf writing.store.otp = true ∧ writing.store.programming = some inFlight ∧ inFlight.image.length = 508 := by
  decide +kernel

theorem test_meets_ProfileLoadTaken :
    up.ready ∧ 4 ≤ (4 : Byte).toNat ∧ ((3 : Byte).toNat < 4 ∧ (withSlot up (.profileLoad 0)).mgmt.slot.isSome)
    ∧ ((3 : Byte).toNat = (3 : Fin 4).val ∧ up.mgmt.slot = none)
    ∧ w0up.window 0 ≠ .unused ∧ (withEntries up [e2000]).merge.entries ≠ []
    ∧ ((∀ n, up.window n = .unused) ∧ up.merge.entries = [] ∧ up.heldState 3 ≠ .written)
    ∧ (let s := withHeld up 3 .written
      (∀ n, s.window n = .unused) ∧ s.merge.entries = [] ∧ s.host.writeBeat = false ∧ s.heldState 3 = .written) := by decide

/-- A READ of two beats done, the second with ERROR. -/
def due : HostRecord := { readOf 0x100 2 with outcomes := [⟨false, 5⟩, ⟨true, 0⟩] }

theorem test_meets_HostRequestsAndAnswers :
    (HostRequest.read 0xFFFFFFF3 3).wellFormed = true
    ∧ readOf 0xFFFFFFF0 4 = ⟨.read, 4 * ((0xFFFFFFF3 : Word).toNat / 4), (3 : BitVec 4).toNat + 1, [], none, []⟩
    ∧ State.reset.host.state = .held ∧ (up.host.state ≠ .held ∧ up.host.requests.length < 8)
    ∧ (let s := withRequests up (List.replicate 8 (readOf 0 1)) none; s.host.state ≠ .held ∧ 8 ≤ s.host.requests.length)
    ∧ (readOf 0xFFFFFFF0 4).address + 4 * ((readOf 0xFFFFFFF0 4).length - 1) ≤ 0xFFFFFFFC
    ∧ 0xFFFFFFFC < (readOf 0xFFFFFFF0 5).address + 4 * ((readOf 0xFFFFFFF0 5).length - 1)
    ∧ (up.setPort .refusing).host.state = .refusing ∧ up.host.state = .accepting
    ∧ (reading.host.requests = readOf 0x2000 1 :: [] ∧ (readOf 0x2000 1).outcomes.length < (readOf 0x2000 1).length)
    ∧ (({ readOf 0x2000 1 with outcomes := [⟨false, 7⟩] } : HostRecord).length ≤ 1)
    ∧ (HostRequest.write 0x100 0 [⟨5, 15⟩]).wellFormed = true
    ∧ (up.haccept = true ∧ up.host.incoming = none ∧ up.host.sending = none ∧ State.reset.haccept = false)
    ∧ (([] : List WriteBeat).length = (0 : BitVec 4).toNat ∧ (List.replicate 15 (⟨5, 15⟩ : WriteBeat)).length = (15 : BitVec 4).toNat)
    ∧ (let s := withRequests up (List.replicate 8 due) none
      s.haccept = false ∧ s.host.sending = none ∧ s.host.incoming = none)
    ∧ (let s := withRequests up [due, due, readOf 0x104 1] none
      s.host.requests[1]? = some due ∧ s.host.requests[2]? = some (readOf 0x104 1) ∧ s.host.sending = none)
    ∧ (due.length ≤ due.outcomes.length ∧ due.answer[0]? = some ⟨5, false⟩ ∧ due.answer[1]? = some ⟨0, true⟩
      ∧ 0 + 1 < due.answer.length ∧ 1 + 1 = due.answer.length)
    ∧ (withRequests up [due] none).host.requests = due :: []
    ∧ (let s := (withRequests up [due] none).setIncoming (some ⟨0x102, 1, []⟩)
      s.host.incoming ≠ none ∧ s.haccept = true ∧ s.host.requests = due :: [] ∧ s.host.sending = none)
    ∧ (let s := (withRequests up (List.replicate 8 due) none).setIncoming (some ⟨0x102, 1, []⟩)
      s.host.incoming ≠ none ∧ s.haccept = false ∧ s.host.sending = none) := by decide

/-- The answer lines of the host bus: HANS, HERR and what HAD carries. -/
def answerLines (s : State) : Bool × Bool × Option Word := (s.hans, s.herr, s.had)

/-- R142: a WRITE of two beats is presented from its address to its last beat, and accepted with that one. -/
theorem test_host_bus_write :
    let s := up.hostBus (.request true 0x102 1)
    s.host.incoming = some ⟨0x102, 1, []⟩
    ∧ (s.hostBus (.beat ⟨5, 15⟩)).host.requests = [] ∧ (s.hostBus (.beat ⟨5, 15⟩)).hostBus (.beat ⟨6, 3⟩)
      = withRequests up [⟨.write, 0x100, 2, [⟨5, 15⟩, ⟨6, 3⟩], none, []⟩] none := by decide
/-- R142, R143, R147: an answer going out, beat by beat; no request is taken meanwhile, and its record leaves after the last. -/
theorem test_host_bus_answer :
    let s := (withRequests up [due] none).hostBus (.answerBegins false)
    s.host.sending = some 0 ∧ s.host.answerState? 0 = some .goingOut ∧ answerLines s = (true, false, some 5) ∧ s.haccept = false
    ∧ answerLines (s.hostBus .answerBeat) = (true, true, some 0)
    ∧ ((s.hostBus .answerBeat).hostBus .answerBeat).host.requests = []
    ∧ answerLines ((s.hostBus .answerBeat).hostBus .answerBeat) = (false, false, none) := by decide
/-- R142: amid a WRITE that asserts HVALID no other request is accepted and no answer goes out; where the WRITE waits for a full
request queue, the answer goes out. -/
theorem test_write_under_way :
    let s := (withRequests up [due] none).setIncoming (some ⟨0x102, 1, []⟩)
    let t := (withRequests up (List.replicate 8 due) none).setIncoming (some ⟨0x102, 1, []⟩)
    after (exec (.hostRequestAccept (.read 0 0)) s) (fun u => u == s) = true
    ∧ after (exec .hostAnswerTransfer s) (fun u => u == s) = true
    ∧ after (exec .hostAnswerTransfer t) (fun u => u.host.requests.length == 7 && u.host.incoming.isSome) = true := by decide
/-- R156: the RESET pin cuts a transfer in either direction, and the lines are at rest. -/
theorem test_host_bus_reset_cuts :
    after (exec (.resetPin false) ((withRequests up [due] none).hostBus (.answerBegins false))) (fun t =>
      t.host == State.reset.host && !t.haccept && answerLines t == (false, false, none)) = true
    ∧ after (exec (.resetPin false) (up.hostBus (.request true 0x102 1))) (fun t => t.host.incoming == none) = true := by
  decide

/-- Window 2 in an access mode, with one request. -/
def beatAt (m : AccessMode) (r : HostRecord) : State × HostRecord :=
  (withRequests (withWindow up 2 { win 0x10000 0x4000 with access := m }) [r] none, r)

/-- The states and head requests for the clauses of BeatDecodeOutcomes. -/
def beats : List (State × HostRecord) :=
  [(withRequests (up.setWindow 2 (.draining (win 0x10000 0x4000))) [readOf 0x10FFC 1] none, readOf 0x10FFC 1),
   beatAt .readWrite (readOf 0x11000 1), beatAt .readWrite (readOf 0x400000 1), beatAt .readWrite (writeOf 0x3FFFFC 5 0),
   beatAt .readWrite (writeOf 0x3FFFFC 5 8), beatAt .readOnly (writeOf 0x10000 5 15), beatAt .writeOnly (readOf 0x10000 1),
   beatAt .readWrite (readOf 0x10040 1), beatAt .readWrite (readOf 0x1003C 1), beatAt .readWrite (writeOf 0x1003C 5 7),
   beatAt .readWrite (writeOf 0x1003C 5 0), beatAt .readWrite (writeOf 0x1003C 5 15)]

theorem test_meets_BeatDecodeOutcomes : ∀ p ∈ beats, TableSound p.1 ∧ DrainChosen p.1 ∧ p.1.host.state ≠ .held
    ∧ p.1.host.action = none ∧ p.1.mgmt.slot = none ∧ p.1.host.head? = some p.2 := by decide +kernel

/-- A slack read beat, the last of its requests, ends phase 2 of a SOFT_RESET in its decode, and with an empty queue phase 7
begins (R169). -/
theorem test_beat_decode_ends_phase2 :
    let s := beatAt .readWrite (readOf 0x10040 1)
    after (exec .beatDecode { withSlot s.1 (.softReset .phase2) with host := { s.1.host with state := .refusing } }) (fun t =>
      t.mgmt.slot == some (.softReset .phase7) && t.window 2 == .unused
      && t.host.requests.map HostRecord.outcomes == [[⟨false, 0⟩]]) = true := by decide

theorem test_meets_BeatDecodeOutcomes_clauses :
    ((withRequests up [due, readOf 0x104 1] none).host.requests = [due] ++ readOf 0x104 1 :: []
      ∧ (∀ q ∈ [due], q.length ≤ q.outcomes.length) ∧ (readOf 0x104 1).outcomes.length < (readOf 0x104 1).length) ∧
    let v := win 0x10000 0x4000
    let c : Carried := ⟨2, v, 6, 3⟩
    v.claims 0x10FFC = true ∧ v.claims 0x11000 = false ∧ up.port.memSize.bytes ≤ 0x400000
    ∧ 0x3FFFFC < up.port.memSize.bytes ∧ v.width * v.height * v.hostFormat.bytes ≤ 0x40
    ∧ 0x3C < v.width * v.height * v.hostFormat.bytes ∧ partlyEnabled .h16 7 = true
    ∧ (partlyEnabled .h16 0 = false ∧ c.lanes ⟨5, 0⟩ = []) ∧ (partlyEnabled .h16 15 = false ∧ c.lanes ⟨5, 15⟩ ≠ []) := by
  decide

/-- A stream request, and with it a host request and a drain request as wished. -/
def requesting (host drain : Bool) (highWater streamWait : Nat) : State :=
  let s := streaming .sending .free
  let s := if host then withRequests s [readOf 0x2000 1] (some (.read none [0x2000] [])) else s
  let s := if drain then withEntries s [{ e2000 with state := .fetching }] else s
  { s with merge := { s.merge with highWater := highWater }, port := { s.port with streamWait := streamWait } }

/-- A region of a window, and an entry, at the end of a memory of 1 MiB. -/
def outside (e : Option Entry) : State :=
  let s := withWindow (withEntries (streaming .sending .free) e.toList) 0 (win 0x10000 0x100000)
  { s with port := { s.port with memSize := .mib1 } }

theorem test_meets_ArbiterGrantOrder :
    (withAccess up .drain none 0 false).port.access.isSome ∧ (withLoad up ⟨.softReset, .applying none⟩).loadApplying = true
    ∧ (up.port.access = none ∧ up.loadApplying = false)
    ∧ ((requesting true true 1 8).streamRequest? = some 0x4000 ∧ 0x4000 < (requesting true true 1 8).port.memSize.bytes
      ∧ 8 ≤ (requesting true true 1 8).port.streamWait)
    ∧ ((requesting false false 1 7).streamRequest? = some 0x4000 ∧ (requesting false false 1 7).hostRequest? = none
      ∧ (requesting false false 1 7).drainRequest? = none)
    ∧ ((requesting true true 1 7).drainRequest? = some (0x2000, none) ∧ (requesting true true 1 7).urgent = true
      ∧ (requesting true true 1 7).port.streamWait < 8)
    ∧ (let s := withEntries up [{ e2000 with state := .fetching }]
      s.drainRequest? = some (0x2000, none) ∧ s.urgent = false ∧ s.hostRequest? = none ∧ s.streamRequest? = none)
    ∧ ((requesting true true 12 7).hostRequest? = some 0x2000 ∧ (requesting true true 12 7).urgent = false
      ∧ 0x2000 < (requesting true true 12 7).port.memSize.bytes)
    ∧ (let s := withRequests up [readOf 0x400000 1] (some (.read none [0x400000] []))
      s.hostRequest? = some 0x400000 ∧ s.port.memSize.bytes ≤ 0x400000 ∧ s.mgmt.slot = none ∧ DrainChosen s)
    ∧ (up.hostRequest? = none ∧ up.streamRequest? = none ∧ up.drainRequest? = none) := by decide +kernel

theorem test_meets_ArbiterGrantOrder_outside :
    ((outside none).streamRequest? = some 0x100000 ∧ (outside none).streamer.region = some region0
      ∧ (outside none).port.memSize.bytes ≤ 0x100000 ∧ (outside none).hostRequest? = none
      ∧ (outside none).drainRequest? = none ∧ (outside none).port.access = none)
    ∧ (let e : Entry := { e2000 with word := 0x100000, state := .fetching }
      let s : State := { outside (some e) with streamer := up.streamer }
      s.drainRequest? = some (0x100000, none) ∧ s.port.memSize.bytes ≤ 0x100000 ∧ s.urgent = false ∧ s.hostRequest? = none
      ∧ s.streamRequest? = none ∧ s.merge.entries.find? (fun f => f.state != .collecting) = some e ∧ e.retryUsed = false
      ∧ s.merge.entries = [] ++ e :: [])
    ∧ (let e : Entry := { e2000 with word := 0x100000, lanes := full 7, state := .pendingWrite, retryUsed := true }
      let s : State := { outside (some e) with merge := ⟨[e], 1, 16⟩ }
      s.drainRequest? = some (0x100000, some 7) ∧ s.urgent = true ∧ s.port.streamWait < 8
      ∧ s.merge.entries.find? (fun f => f.state != .collecting) = some e ∧ e.retryUsed = true) := by decide +kernel

/-- Log 27: a DRAIN write at the memory size is timed out at its grant, marked at its first and lost at its second. -/
theorem test_grant_outside_memory :
    let e : Entry := { e2000 with word := 0x100000, lanes := full 7, state := .pendingWrite }
    let s : State := { outside (some e) with streamer := up.streamer }
    after (exec .arbiterGrant s) (fun t =>
      t.port.access == none && t.merge.entries == [{ e with state := .writing, retryUsed := true }]
      && after (exec .arbiterGrant t) (fun u => u.merge.entries == []
        && u.events.records == [⟨0, .drainTimeout true .bypass 0x100000, false⟩])) = true := by decide +kernel

/-- A window read beat of two words in action, with its first words answered. -/
def windowRead (got : List Word) : State :=
  withAccess (withRequests w0up [readOf 0x10000 1] (some (.read (some ⟨0, win 0x10000 0x4000, 0, 0⟩) [0x4000, 0x4004] got)))
    .hostRead none 0x4000 false

/-- A region over a window whose pixels straddle words, with the words of the pixel being read answered so far. -/
def straddlingRegion (x : Nat) (got : List Word) : State :=
  let s := withWindow (streaming .sending .free) 0 { win 0x10000 0x4000 with storedFormat := .c12 }
  { withAccess s .stream none 0x4000 false with streamer := { s.streamer with
      region := some { region0 with rect := ⟨x, 0, x, 0⟩, words := got } } }

theorem test_meets_MemoryAnswerOutcomes :
    up.port.access = none
    ∧ (withAccess up .stream none 4 true).port.access = some ⟨.stream, none, 4, true, 0, 8⟩
    ∧ (reading.host.action = some (.read none [0x2000] []) ∧ reading.mgmt.slot = none ∧ DrainChosen reading)
    ∧ (windowRead []).host.action = some (.read (some ⟨0, win 0x10000 0x4000, 0, 0⟩) [0x4000, 0x4004] [])
    ∧ ((windowRead [5]).host.action = some (.read (some ⟨0, win 0x10000 0x4000, 0, 0⟩) [0x4000, 0x4004] [5])
      ∧ [0x4000, 0x4004].length = [5].length + 1 ∧ (windowRead [5]).mgmt.slot = none ∧ DrainChosen (windowRead [5]))
    ∧ (withEntries up [{ e2000 with state := .fetching }]).merge.drain? = some { e2000 with state := .fetching }
    ∧ (let e : Entry := { e2000 with lanes := full 7, state := .writing }
      let s := withAccess (withEntries up [e]) .drain (some 7) 0x2000 false
      s.port.access = some ⟨.drain, some 7, 0x2000, false, 0, 8⟩ ∧ s.merge.drain? = some e ∧ s.mgmt.slot = none
      ∧ s.host.action = none)
    ∧ (∃ r v, (straddlingRegion 2 []).streamer.region = some r ∧ ((straddlingRegion 2 []).window r.window).values? = some v
      ∧ r.words.length + 1
        < (v.pixelWords (r.rect.x0 + r.nextRead % (r.rect.x1 - r.rect.x0 + 1)) (r.rect.y0 + r.nextRead / (r.rect.x1 - r.rect.x0 + 1))).length)
    ∧ (∃ r v, (straddlingRegion 2 [5]).streamer.region = some r ∧ ((straddlingRegion 2 [5]).window r.window).values? = some v
      ∧ (v.pixelWords (r.rect.x0 + r.nextRead % (r.rect.x1 - r.rect.x0 + 1)) (r.rect.y0 + r.nextRead / (r.rect.x1 - r.rect.x0 + 1))).length
        = r.words.length + 1) :=
  ⟨rfl, rfl, by decide +kernel, rfl, by decide +kernel, by decide, by decide +kernel, ⟨_, _, rfl, rfl, by decide⟩,
    ⟨_, _, rfl, rfl, by decide⟩⟩

theorem test_meets_AccessTimeoutOutcomes :
    up.port.access = none ∧ (withAccess up .stream none 4 true).port.access = some ⟨.stream, none, 4, true, 0, 8⟩
    ∧ ((windowRead [5]).port.access = some ⟨.hostRead, none, 0x4000, false, 0, 8⟩ ∧ DrainChosen (windowRead [5]))
    ∧ (let s := withAccess (withEntries up [{ e2000 with state := .fetching }]) .drain none 0x2000 false
      s.port.access = some ⟨.drain, none, 0x2000, false, 0, 8⟩ ∧ s.merge.drain? = some { e2000 with state := .fetching })
    ∧ (let e : Entry := { e2000 with state := .fetching, retryUsed := true }
      let s := withAccess (withEntries up [e]) .drain none 0x2000 false
      s.merge.drain? = some e ∧ s.mgmt.slot = none ∧ s.host.action = none)
    ∧ (let s := withAccess (streaming .sending .free) .stream none 0x4000 false
      s.port.access = some ⟨.stream, none, 0x4000, false, 0, 8⟩ ∧ s.streamer.region = some region0) := by decide +kernel

/-- A WRITING entry of word 2000h whose write is answered next, with a FLUSH in the slot or a beat waiting. -/
def retiring (slot : Option LongOp) (action : Option BeatAction) : State :=
  let s := withEntries up [{ e2000 with lanes := full 7, state := .writing }]
  { withAccess (withRequests s [writeOf 0x2000 9 1] action) .drain (some 7) 0x2000 false with
    mgmt := { up.mgmt with slot := slot } }

/-- The same with these entries behind the one written. -/
def retiringWith (slot : Option LongOp) (action : Option BeatAction) (others : List Entry) : State :=
  let s := retiring slot action
  withEntries s (s.merge.entries ++ others)

/-- A beat of window 0, with tracking on or off at its decode, that waits for the entry being written, and the lanes it hands
over; window 0 now has this scroll. -/
def waitingBeat (tracking : Bool) : Carried := ⟨0, { win 0x10000 0x4000 with tracking := tracking }, 0, 0⟩
def waitingLanes : List LaneWrite := (waitingBeat true).lanes ⟨0x22221111, 15⟩
def retiringRun (tracking : Bool) (scroll : Nat) : State :=
  withWindow (retiring none (some (.write (.window 0) waitingLanes (some (waitingBeat tracking, ⟨0, 0, 1, 0⟩))))) 0
    { win 0x10000 0x4000 with scroll := scroll }

theorem test_meets_RetirementServesWaiters :
    (∃ e, (retiring none none).port.access = some ⟨.drain, some 7, 0x2000, false, 0, 8⟩
      ∧ (retiring none none).merge.drain? = some e ∧ e.word = 0x2000)
    ∧ ((retiring (some (.flush none [0x2000, 4])) none).mgmt.slot = some (.flush none [0x2000, 4])
      ∧ [0x2000, 4].filter (fun b => b != 0x2000) ≠ [])
    ∧ ((retiring (some (.flush (some 7) [0x2000])) none).mgmt.slot = some (.flush (some 7) [0x2000])
      ∧ [0x2000].filter (fun b => b != 0x2000) = [])
    ∧ (let l : List LaneWrite := [⟨0x2000, 0, 9⟩, ⟨0x2000, 1, 0⟩]
      let s := retiring none (some (.write .bypass l none))
      s.host.action = some (.write .bypass l none)
      ∧ { s.merge with entries := s.merge.entries.eraseP Entry.draining }.canTake l = true)
    ∧ ((retiring (some (.closeWindow 7)) none).mgmt.slot = some (.closeWindow 7)
      ∧ ∀ f ∈ (retiring (some (.closeWindow 7)) none).merge.entries.eraseP Entry.draining, f.creator ≠ .window 7)
    ∧ (let s := retiringWith (some (.closeWindow 0)) none [entry 0x4000 e2000.lanes (.window 0)]
      s.mgmt.slot = some (.closeWindow 0) ∧ ∃ f ∈ s.merge.entries.eraseP Entry.draining, f.creator = .window 0)
    ∧ (let s := retiringWith (some (.closeWindow 0)) (some (.write (.window 0) manyWords none)) fifteen
      s.mgmt.slot = some (.closeWindow 0) ∧ s.host.action = some (.write (.window 0) manyWords none)
      ∧ { s.merge with entries := s.merge.entries.eraseP Entry.draining }.canTake manyWords = false)
    ∧ (let s := retiringRun true 0
      s.mgmt.slot = none ∧ s.host.action = some (.write (.window 0) waitingLanes (some (waitingBeat true, ⟨0, 0, 1, 0⟩)))
      ∧ { s.merge with entries := s.merge.entries.eraseP Entry.draining }.canTake waitingLanes = true
      ∧ s.window 0 = .active (win 0x10000 0x4000) ∧ (waitingBeat true).values.tracking = true
      ∧ (win 0x10000 0x4000).scroll = (waitingBeat true).values.scroll)
    ∧ ((retiringRun true 3).window 0 = .active { win 0x10000 0x4000 with scroll := 3 }
      ∧ ({ win 0x10000 0x4000 with scroll := 3 } : WindowValues).scroll ≠ (waitingBeat true).values.scroll)
    ∧ ((retiringRun false 0).host.action = some (.write (.window 0) waitingLanes (some (waitingBeat false, ⟨0, 0, 1, 0⟩)))
      ∧ (waitingBeat false).values.tracking = false) :=
  ⟨⟨_, rfl, rfl, rfl⟩, by decide, by decide, by decide, by decide, by decide, by decide, by decide, by decide, by decide⟩

/-- R186: the MEM_TIMEOUT of a lost entry and the OP_DONE of the FLUSH that ends with it are posted in one of the two orders. -/
theorem test_events_of_one_moment :
    let e : Entry := { e2000 with lanes := full 7, state := .writing, retryUsed := true }
    let s : State := { withAccess (withEntries up [e]) .drain (some 7) 0x2000 false with
      mgmt := { up.mgmt with slot := some (.flush none [0x2000]) } }
    ∃ order t, List.Perm order [.drainTimeout true .bypass 0x2000, .opDone 0x20 .done] ∧ exec .accessTimeout s = .next t
      ∧ t.events = order.foldl EventQueue.post up.events ∧ t.events.counter = 2 ∧ t.freeCount = up.freeCount + 1
      ∧ t.mgmt.slot = none ∧ t.merge.entries = [] :=
  ⟨_, _, arrange_perm 0 _, rfl, rfl, State.postTogether_counter up _, rfl, rfl, rfl⟩

/-- The waiting beat's run is inserted at the retirement (R77). -/
theorem test_retirement_takes_run : after (exec (.memoryAnswer 0) (retiringRun true 0)) (fun t =>
    t.damage.records.map (fun r => (r.window, r.rect)) == [(0, ⟨0, 0, 1, 0⟩)]
    && t.merge.entries.map Entry.word == [0x4000] && t.host.requests.map HostRecord.done == [true]) = true := by decide

theorem test_meets_DepthConversion :
    (1 ≤ 5 ∧ 31 < 2 ^ 5) ∧ (1 ≤ 1 ∧ 0 < 2 ^ 1) ∧ (8 : Nat) = 8 ∧ 4 < 5 ∧ 5 < 6
    ∧ (31 < 32 ∧ 63 < 64 ∧ 31 < 256 ∧ 63 < 256) ∧ (15 < 16 ∧ 7 < 8 ∧ 3 < 4)
    ∧ hostChannels (win 0 0).hostFormat 0x9DA7 = .colour ⟨5, 19⟩ ⟨6, 45⟩ ⟨5, 7⟩ ∧ hostChannels .h8 7 = .grey ⟨8, 7⟩
    ∧ storedChannels .l4 .bgr 7 = .grey ⟨4, 7⟩
    ∧ storedChannels (win 0 0).storedFormat (win 0 0).order 0x9DA7 = .colour ⟨5, 19⟩ ⟨6, 45⟩ ⟨5, 7⟩ := by decide

theorem test_meets_PixelPlacement :
    let v : WindowValues := { win 0x10000 0x1000 with storedFormat := .c12, mirrorX := true, mirrorY := true, scroll := 3 }
    v.inRange = true ∧ 7 < v.width ∧ 3 < v.height ∧ 2 < v.storedFormat.lanes
    ∧ (v.storedX 5 = 2 ∧ v.storedY 0 = 2) ∧ v.pixelLane 5 0 1 = (0x1000 + 2 * 16, 7)
    ∧ (let c : Carried := ⟨5, v, 2, 0⟩
      c.applied ⟨0x07E0F800, 15⟩ = [0, 1] ∧ (1 : Nat) < 4 / v.hostFormat.bytes ∧ [(0x1028, (7 : Word))].lookup (v.pixelLane 2 0 2).1 = some 7) := by
  decide

theorem test_meets_HostSpanAndSlack : imageWindow.sound ∧ (win 0xFFFFF000 0).sound := by decide

/-! ### A busy state that meets every invariant -/

/-- The state of 11.5 with CLOSE_WINDOW 2 at the front of the queue of commands. -/
def busy : State := { closing with pending := [.closeWindow 2] }

theorem busy_steps : ∃ t, step busy = .next t := ⟨_, rfl⟩

theorem busy_operation_sound : OperationSound busy := by
  refine ⟨rfl, ?_, ?_, by decide, by decide, ⟨by decide, rfl⟩⟩
  · intro p h; cases (show (none : Option LongOp) = some (.softReset p) from h)
  · intro n h; cases (show (none : Option LongOp) = some (.closeWindow n) from h)

theorem busy_address_sound : AddressSound busy :=
  ⟨by decide +kernel, by decide +kernel, by show ∀ l ∈ _, _; decide +kernel, by decide, by decide⟩

theorem test_meets_MergeQueueStaysSound : MergeSound busy ∧ DrainChosen busy ∧ TableSound busy ∧ HostSound busy
    ∧ OperationSound busy ∧ AddressSound busy ∧ ∃ t, step busy = .next t :=
  ⟨by decide +kernel, by decide +kernel, by decide +kernel, by decide +kernel, busy_operation_sound, busy_address_sound,
    busy_steps⟩

theorem test_meets_EventQueueStaysSound : EventsSound { sixteen with pending := [.eventsRead] }
    ∧ ∃ t, step { sixteen with pending := [.eventsRead] } = .next t := ⟨by decide, _, rfl⟩

theorem test_meets_ApertureTableStaysSound : TableSound busy ∧ ∃ t, step busy = .next t := ⟨by decide +kernel, busy_steps⟩

theorem test_meets_PortsStaySound :
    (HostSound busy ∧ busy.port.streamWait ≤ 8 ∧ SettingsSound busy ∧ ∃ t, step busy = .next t)
    ∧ (let s := up.hostBus (.request true 0x102 15); HostSound s ∧ ∃ t, hostBusStep (.beat ⟨5, 15⟩) s = .next t)
    ∧ (let s := (withRequests up [due] none).hostBus (.answerBegins false)
      HostSound s ∧ ∃ t, hostBusStep .answerBeat s = .next t) :=
  ⟨⟨by decide +kernel, by decide, by decide, busy_steps⟩, ⟨by decide, _, rfl⟩, ⟨by decide, _, rfl⟩⟩

theorem test_meets_ProfileStoreStaysSound :
    OperationSound { withArm up 1 with pending := [.profileWrite] }
    ∧ StoreSound { withArm up 1 with pending := [.profileWrite] }
    ∧ ∃ t, step { withArm up 1 with pending := [.profileWrite] } = .next t := by
  refine ⟨⟨rfl, ?_, ?_, by decide, by decide, ⟨by decide, rfl⟩⟩, ⟨rfl, ?_, ?_⟩, _, rfl⟩
  · intro p h; cases (show (none : Option LongOp) = some (.softReset p) from h)
  · intro n h; cases (show (none : Option LongOp) = some (.closeWindow n) from h)
  · intro n; fin_cases n <;> exact fun _ _ _ => rfl
  · intro w h; cases h

theorem test_meets_OperationsStaySound : OperationSound busy ∧ ∃ t, step busy = .next t := ⟨busy_operation_sound, busy_steps⟩

theorem busy_damage_sound : DamageSound busy := by
  exact ⟨by decide, by decide, ⟨by decide, by decide⟩, rfl, _, rfl, rfl, rfl, rfl⟩

theorem test_meets_StreamerStaysSound :
    OperationSound busy ∧ DamageSound busy ∧ StreamSound busy ∧ ∃ t, step busy = .next t :=
  ⟨busy_operation_sound, busy_damage_sound, by decide +kernel, busy_steps⟩

theorem test_meets_DamageListStaysSound :
    TableSound busy ∧ HostSound busy ∧ OperationSound busy ∧ StreamSound busy ∧ DamageSound busy
    ∧ ∃ t, step busy = .next t :=
  ⟨by decide +kernel, by decide +kernel, busy_operation_sound, by decide +kernel, busy_damage_sound, busy_steps⟩

end Sys2Proof.Tests
end

section
/-!
PROOF. A window's host range (R20): its span is the pixel bytes rounded up to a page, the rest is slack.
-/

namespace Sys2Proof.Machine

/-! ### The host span of a width, a height and a format -/

theorem HostFormat.bytes_pos (f : HostFormat) : 0 < f.bytes := by
  cases f <;> decide

theorem hostSpanOf_mod_page (width height : Nat) (f : HostFormat) : hostSpanOf width height f % Config.page = 0 :=
  Nat.mul_mod_left _ _

theorem le_hostSpanOf (width height : Nat) (f : HostFormat) : width * height * f.bytes ≤ hostSpanOf width height f := by
  simp only [hostSpanOf, Config.page]
  omega

/-- No smaller multiple of a page holds the pixel bytes. -/
theorem hostSpanOf_lt_add_page (width height : Nat) (f : HostFormat) :
    hostSpanOf width height f < width * height * f.bytes + Config.page := by
  simp only [hostSpanOf, Config.page]
  omega

/-! ### The values the range check allows (R23) -/

theorem WindowValues.size_of_inRange {v : WindowValues} (h : v.inRange = true) : 0 < v.width ∧ 0 < v.height := by
  simp only [WindowValues.inRange, Bool.and_eq_true, decide_eq_true_eq] at h
  omega

/-- A row of pixels fills whole words (R19). -/
theorem WindowValues.row_bytes_of_inRange {v : WindowValues} (h : v.inRange = true) :
    4 ∣ v.width * v.hostFormat.bytes := by
  simp only [WindowValues.inRange, Bool.and_eq_true, beq_iff_eq] at h
  omega

theorem WindowValues.pixelBytes_pos {v : WindowValues} (h : v.inRange = true) : 0 < v.pixelBytes :=
  have ⟨hw, hh⟩ := v.size_of_inRange h
  Nat.mul_pos (Nat.mul_pos hw hh) v.hostFormat.bytes_pos

/-- The pixels are whole rows, so they fill whole words too. -/
theorem WindowValues.four_dvd_pixelBytes {v : WindowValues} (h : v.inRange = true) : 4 ∣ v.pixelBytes := by
  rw [WindowValues.pixelBytes, Nat.mul_right_comm]
  exact (v.row_bytes_of_inRange h).mul_right v.height

/-! ### The host range (R20) -/

theorem WindowValues.claims_iff (v : WindowValues) (a : Nat) :
    v.claims a = true ↔ v.hostBase ≤ a ∧ a < v.hostBase + v.hostSpan := by
  simp [WindowValues.claims]

/-- Settles O52. The span is less than a page above the pixel bytes, and both are whole words: this bounds the slack by 4092
and not by 4095. The span holds at least one pixel, so host base + span − 1 is its last address. -/
theorem hostSpanAndSlack : Obligations.HostSpanAndSlack := by
  intro v ⟨hrange, hspan, _, _⟩
  have hpage : v.hostSpan % 4096 = 0 := hspan ▸ hostSpanOf_mod_page ..
  have hle : v.pixelBytes ≤ v.hostSpan := hspan ▸ le_hostSpanOf ..
  have hlt : v.hostSpan < v.pixelBytes + 4096 := hspan ▸ hostSpanOf_lt_add_page ..
  have hwords : 4 ∣ v.pixelBytes := v.four_dvd_pixelBytes hrange
  have hpos : 0 < v.pixelBytes := v.pixelBytes_pos hrange
  refine ⟨hpage, hle, by omega, by omega, rfl, fun a => ?_⟩
  rw [v.claims_iff]
  omega

end Sys2Proof.Machine
end

section
/-!
PROOF. SYNC opens a pass (R91, R99): every PENDING record takes the pass mark, and the first of them is streamed.
-/

namespace Sys2Proof.Machine

/-! ### The pass mark of a record (R91) -/

/-- The record after a SYNC: a PENDING one carries the pass mark. -/
def Record.passMarked (r : Record) : Record := if r.state = .pending then { r with mark := true } else r

theorem Record.isPending_iff {r : Record} : r.isPending = true ↔ r.state = .pending := by
  simp [Record.isPending]

theorem Record.isMarked_eq (r : Record) : r.isMarked = (r.isPending && r.mark) := rfl

theorem Record.passMarked_of_pending {r : Record} (h : r.isPending = true) : r.passMarked = { r with mark := true } :=
  if_pos (Record.isPending_iff.mp h)

theorem Record.passMarked_of_not_pending {r : Record} (h : ¬ r.isPending = true) : r.passMarked = r :=
  if_neg fun hs => h (Record.isPending_iff.mpr hs)

/-- Whatever marks an earlier pass left, the marked PENDING records are now the PENDING ones. -/
theorem Record.isMarked_passMarked (r : Record) : r.passMarked.isMarked = r.isPending := by
  by_cases h : r.isPending = true
  · rw [Record.passMarked_of_pending h]
    exact Bool.and_true r.isPending
  · rw [Record.passMarked_of_not_pending h]
    simp [Record.isMarked_eq, h]

/-! ### The pass marks of the list (R91) -/

theorem DamageList.markPending_eq (l : DamageList) :
    l.markPending = { l with records := l.records.map Record.passMarked } := by
  simp [DamageList.markPending, Record.passMarked]

/-- The first marked record of the marked list is the list's first PENDING record. -/
theorem DamageList.find?_isMarked_markPending (l : DamageList) :
    l.markPending.records.find? Record.isMarked = (l.records.find? Record.isPending).map Record.passMarked := by
  have hcomp : Record.isMarked ∘ Record.passMarked = Record.isPending := funext Record.isMarked_passMarked
  rw [DamageList.markPending_eq, List.find?_map, hcomp]

theorem DamageList.markPending_of_none {l : DamageList} (h : l.records.find? Record.isPending = none) :
    l.markPending = l := by
  have hsame : l.records.map Record.passMarked = l.records :=
    (List.map_congr_left fun r hr => Record.passMarked_of_not_pending (List.find?_eq_none.mp h r hr)).trans
      (List.map_id' _)
  rw [DamageList.markPending_eq, hsame]

/-! ### SYNC (R99) -/

/-- Outside WAIT_SYNC a SYNC is ignored. -/
theorem exec_sync_ignored {s : State} (h : s.streamer.state ≠ .waitSync) : exec .sync s = .next s :=
  congrArg Host.Outcome.next (if_neg h)

/-- In WAIT_SYNC the marks are set, and the pass goes on as after a region of it. -/
theorem exec_sync_waiting {s : State} (h : s.streamer.state = .waitSync) :
    exec .sync s = .next (State.continuePass
      { s with damage := s.damage.markPending, streamer := { s.streamer with passOpen := true } }) :=
  congrArg Host.Outcome.next (if_pos h)

/-- With no PENDING record the pass that SYNC opens is over at once. -/
theorem exec_sync_none {s : State} (hs : s.streamer.state = .waitSync)
    (h : s.damage.records.find? Record.isPending = none) :
    exec .sync s = .next { s with streamer := { s.streamer with passOpen := false } } := by
  have hnone : s.damage.markPending.records.find? Record.isMarked = none := by
    rw [DamageList.find?_isMarked_markPending, h, Option.map_none]
  rw [exec_sync_waiting hs, State.continuePass_over hnone, DamageList.markPending_of_none h, ← hs]

/-- With a PENDING record the pass begins with the first of them. -/
theorem exec_sync_some {s : State} {r : Record} (hs : s.streamer.state = .waitSync)
    (h : s.damage.records.find? Record.isPending = some r) :
    exec .sync s = .next (State.withTaken
      { s with
        damage := { s.damage with records := s.damage.records.map Record.passMarked }
        streamer := { s.streamer with passOpen := true } } Record.isMarked { r with mark := true }) := by
  have hfirst : s.damage.markPending.records.find? Record.isMarked = some { r with mark := true } := by
    rw [DamageList.find?_isMarked_markPending, h, Option.map_some, Record.passMarked_of_pending (List.find?_some h)]
  rw [exec_sync_waiting hs, State.continuePass_taken hfirst, DamageList.markPending_eq]

/-- Settles O37. Marking does not change which records are PENDING, so the pass opens exactly if one was PENDING before. -/
theorem syncOpensPass : Obligations.SyncOpensPass := fun _ =>
  ⟨exec_sync_ignored, fun hs => ⟨exec_sync_none hs, fun _ => exec_sync_some hs⟩⟩

end Sys2Proof.Machine
end


section
/-!
PROOF. What a command can do, said once. A command's effect is a sequence of moves, each of which changes one block, or the
few blocks that the rules change together; the theorems `exec_reaches` and `step_reaches` say so for every command and for
the step. What every step keeps is then shown move by move.
-/

namespace Sys2Proof.Machine

/-! ### The moves, block by block -/

/-- The event queue takes an event, gives records to EVENTS_READ, or takes a mask (R183, R187, R188). -/
inductive EventMove (q : EventQueue) : EventQueue → Prop
  | post (e : Event) : EventMove q (q.post e)
  | read : EventMove q { q with records := q.records.drop Config.eventsPerRead }
  | mask (m : BitVec 7) : EventMove q { q with mask := m }

/-- What happens to the merge queue (chapter 3). -/
inductive MergeMove (s : State) : MergeQueue → Prop
  | choose : MergeMove s s.chooseDrain.merge
  | take {c : Creator} {lanes : List LaneWrite} {run : Option (Carried × Rect)} (mark granted : Bool) :
      s.host.action = some (.write c lanes run) → s.merge.canTake lanes = true →
      MergeMove s (s.merge.takeSet c mark granted lanes)
  | mark (p : Entry → Bool) : MergeMove s (s.merge.mark p)
  | age (d : Nat) : MergeMove s (s.merge.ageBy d)
  | remove : MergeMove s { s.merge with entries := s.merge.entries.eraseP Entry.draining }
  | fetch (w : Word) : MergeMove s (s.merge.onDrain fun e => e.fetchAnswer w)
  | retry : MergeMove s (s.merge.onDrain Entry.firstTimeout)
  | grant {e : Entry} : s.merge.drain? = some e → e.state = .pendingWrite ∨ e.state = .writing →
      MergeMove s (s.merge.onDrain fun e => { e with state := .writing })
  | config {highWater linger : Nat} : 1 ≤ highWater → highWater ≤ 16 → linger ≤ 255 →
      MergeMove s { s.merge with highWater := highWater, linger := linger }

/-- A rectangle that a command inserts for a window of these values (R33, R77, R84): one within it, the whole window, or the
run of the beat in action. -/
def State.admits (s : State) (w : Fin 8) (v : WindowValues) (q : Rect) : Prop :=
  q.within v.width v.height = true ∨ q = v.full
  ∨ ∃ c lanes d, s.host.action = some (.write c lanes (some (d, q))) ∧ d.window = w

/-- What happens to the damage list, the streamer and the link, with the abort of a STREAM access (chapters 4 and 5). -/
inductive StreamMove (s : State) : State → Prop
  | idle : StreamMove s s.takeIfIdle
  | insert {w : Fin 8} {v : WindowValues} {q : Rect} : s.window w = .active v → s.admits w v q →
      s.host.writeBeat = true ∨ (s.ready ∧ s.resetOrLoad = false) → StreamMove s (s.insertRect w q).takeIfIdle
  | replace {n : Fin 8} {v : WindowValues} : s.window n = .active v → s.regionOf n = false →
      s.damage.records.any (fun r => r.window == n) = true →
      StreamMove s { s with damage := s.damage.replaceWindow n v.full }
  | scroll {n : Fin 8} {v : WindowValues} : s.window n = .active v → s.regionOf n = true →
      StreamMove s (State.regionEnd { s.abortRegion with damage := s.damage.replaceWindow n v.full })
  | close (n : Fin 8) : StreamMove s (s.closeDamage n)
  | clear (n : Fin 8) : StreamMove s { s with damage := s.damage.remove (Record.pendingOf n) }
  | mode (m : StreamMode) : StreamMove s (s.setMode m)
  | config (f : PanelFormat) {limit retries : Nat} : s.streamer.state = .off → 1 ≤ limit → limit ≤ 255 → retries ≤ 3 →
      StreamMove s { s with streamer := { s.streamer with panelFormat := f, answerLimit := limit, retries := retries } }
  | resume : s.streamer.state = .stalled → StreamMove s s.resume
  | progress {r r' : Region} : s.streamer.region = some r → r'.window = r.window → r'.rect = r.rect →
      StreamMove s { s with streamer := { s.streamer with region := some r' } }
  | ended : s.streamer.state = .sending → s.streamer.region.isSome = true →
      StreamMove s { s with streamer := { s.streamer with state := .awaitAnswer, answerTimer := some 0 } }
  | accept : s.streamer.state = .awaitAnswer →
      StreamMove s (State.regionEnd { s with damage := s.damage.dropStreaming })
  | resend {r : Region} : s.streamer.state = .awaitAnswer → s.streamer.region = some r →
      s.streamer.retriesUsed < s.streamer.retries →
      StreamMove s (State.beginAttempt
        { s with streamer := { s.streamer with retriesUsed := s.streamer.retriesUsed + 1 } } r.window r.rect)
  | stall : s.streamer.region.isSome = true → StreamMove s s.stall
  | fail : s.streamer.region.isSome = true → StreamMove s s.abortRegion.stall.resetStreamWait
  | sync : s.streamer.state = .waitSync → StreamMove s (State.continuePass
      { s with damage := s.damage.markPending, streamer := { s.streamer with passOpen := true } })
  | tick : StreamMove s { s with streamer := { s.streamer with answerTimer := s.streamer.answerTimer.map fun t => t + 1 } }

/-- What happens to the memory port beside an abort (chapter 6). -/
inductive PortMove (s : State) : MemoryPort → Prop
  | grant {a : Access} {w : Nat} : s.port.access = none → a.address < s.port.memSize.bytes → a.limit = s.port.waitLimit →
      (s.port.streamWait ≤ 8 → w ≤ 8) → PortMove s { s.port with access := some a, streamWait := w }
  | free {w : Nat} : (s.port.streamWait ≤ 8 → w ≤ 8) → PortMove s { s.port with access := none, streamWait := w }
  | tick : PortMove s { s.port with access := s.port.access.map fun a => { a with timer := a.timer + 1 } }

/-- What happens to the host port beside its state (chapter 7). -/
inductive HostMove (s : State) : HostPort → Prop
  | finish (o : BeatOutcome) : HostMove s (s.finishBeat o).host
  | decode {r : HostRecord} : s.host.state ≠ .held → s.host.action = none → s.host.head? = some r →
      HostMove s (s.decodeBeat r).1.host
  | join {c : Option Carried} {words : List Nat} {answered : List Word} (answered' : List Word) :
      s.host.action = some (.read c words answered) →
      HostMove s { s.host with action := some (.read c words answered') }
  | enqueue {r : HostRecord} : s.host.requests.length < 8 → r.sound → (s.host.state = .refusing → r.done = true) →
      HostMove s { s.host with requests := s.host.requests ++ [r] }
  | answer {r : HostRecord} {rest : List HostRecord} (answers : List (List AnswerBeat)) :
      s.host.requests = r :: rest → r.done = true →
      HostMove s { s.host with requests := rest, answers := answers, sending := none }

/-- The change of a window in use that leaves its place, its geometry and its formats alone (R32 to R36). -/
def WindowValues.keeps (v v' : WindowValues) : Prop :=
  v' = { v with scroll := v'.scroll, access := v'.access, key := v'.key, clip := v'.clip }
  ∧ (v.inRange = true → v'.inRange = true)

/-- What happens to the aperture table beside the ends of a close, a load and a reset (chapter 2). -/
inductive TableMove (s : State) : Table → Prop
  | stage {d : List Byte} : (parseDescriptor d).malformed = false → TableMove s { s.table with staging := some d }
  | opens {n : Fin 8} {v : WindowValues} {d : List Byte} : s.ready → s.resetOrLoad = false → s.window n = .unused →
      openChecks s.table s.port.memSize d = .ok v → TableMove s (s.setWindow n (.active v)).table
  | change {n : Fin 8} {v v' : WindowValues} : s.window n = .active v → v.keeps v' →
      TableMove s (s.setWindow n (.active v')).table
  | drain {n : Fin 8} {v : WindowValues} : s.window n = .active v → (∀ r ∈ s.damage.records, r.window ≠ n) →
      TableMove s (s.setWindow n (.draining v)).table

/-- What happens to the long-operation slot, the host port's state and the load (chapters 8 and 10). -/
inductive OperationMove (s : State) : State → Prop
  | drop (a : Nat) : OperationMove s (s.setSlot (s.mgmt.slot.map fun o => o.dropWord a))
  | closeTaken {n : Fin 8} {v : WindowValues} : s.ready → s.mgmt.slot = none → s.window n = .draining v →
      OperationMove s (s.setSlot (some (.closeWindow n)))
  | flushTaken (sel : Option (Fin 8)) (ws : List Nat) : s.ready → s.mgmt.slot = none →
      OperationMove s (s.setSlot (some (.flush sel ws)))
  | flushEnds {sel : Option (Fin 8)} : s.mgmt.slot = some (.flush sel []) → OperationMove s (s.setSlot none)
  | resetTaken : s.ready → (∀ n, s.mgmt.slot ≠ some (.profileWrite n)) → (∀ p, s.mgmt.slot ≠ some (.softReset p)) →
      OperationMove s (((s.setSlot (some (.softReset .phase2))).setLoad none).setPort .refusing)
  | phase2Ends : s.mgmt.slot = some (.softReset .phase2) → s.host.quiet = true →
      OperationMove s (s.setSlot (some (.softReset .phase3)))
  | loadTaken {n : Fin 4} : s.ready → s.mgmt.slot = none → s.quietForLoad = true →
      OperationMove s (((s.setSlot (some (.profileLoad n))).setPort .held).setLoad (some ⟨.profileLoad n, .examining n⟩))
  | loadMoves {k : LoadKind} {st : LoadStage} (st' : LoadStage) : s.store.load = some ⟨k, st⟩ →
      OperationMove s (s.setLoad (some ⟨k, st'⟩))
  | loadFails {n : Fin 4} {st : LoadStage} : s.store.load = some ⟨.profileLoad n, st⟩ →
      OperationMove s (((s.setSlot none).setPort .accepting).setLoad none)

/-- What changes the bytes and the held states of the slots (R196, R197): at most one of these belongs to a command. -/
inductive MarkMove (s : State) : State → Prop
  | writeTaken {n : Fin 4} : s.ready → s.mgmt.slot = none → s.heldState n = .blank → MarkMove s (s.startWrite n)
  | writeEnds {w : Programming} {p : ProfileStore} (failed : List (Nat × Byte)) : s.store.programming = some w →
      (s.endProgramming w failed).store = p → MarkMove s { s with mgmt := { s.mgmt with slot := none }, store := p }
  | retire {n : Fin 4} : s.heldState n = .written → MarkMove s (s.markSlot n 510 .retired)
  | reject {n : Fin 4} : s.heldState n = .written → MarkMove s (s.markSlot n 511 .damaged)

/-- The settings are in the ranges of R18. -/
def Settings.allowed (g : Settings) : Prop :=
  (1 ≤ g.waitLimit ∧ g.waitLimit ≤ 64) ∧ (1 ≤ g.highWater ∧ g.highWater ≤ 16) ∧ g.linger ≤ 255
  ∧ (1 ≤ g.answerLimit ∧ g.answerLimit ≤ 255) ∧ g.retries ≤ 3

/-- The global settings put in force (R205), before the drain choice and the streamer's taking that follow them. -/
def State.withSettings (s : State) (g : Settings) (outcome : Option (Fin 4)) : State :=
  { s with
    port := { s.port with memSize := g.memSize, waitLimit := g.waitLimit }
    merge := { s.merge with highWater := g.highWater, linger := g.linger }
    streamer := { s.streamer with
      state := g.mode.loadedState, mode := g.mode, passOpen := false, region := none, answerTimer := none
      panelFormat := g.panelFormat, answerLimit := g.answerLimit, retries := g.retries }
    events := { s.events with mask := g.mask }
    mgmt := { s.mgmt with loadOutcome := outcome } }

/-- Phases 4 to 6 of a SOFT_RESET and the start of phase 7 (R169), with the abort of a region in flight. -/
def State.phases4to7 (s : State) : State := (if s.streamer.region.isSome then s.abortRegion else s).phase7Start

/-- One thing that a command does. -/
inductive Move (s : State) : State → Prop
  | events {q : EventQueue} : EventMove s.events q → Move s { s with events := q }
  | free (k : Nat) : Move s { s with freeCount := k }
  | link (l : PanelLink) : Move s { s with link := l }
  | merge {q : MergeQueue} : MergeMove s q → Move s { s with merge := q }
  | port {p : MemoryPort} : PortMove s p → Move s { s with port := p }
  | host {h : HostPort} : HostMove s h → Move s { s with host := h }
  | table {b : Table} : TableMove s b → Move s { s with table := b }
  | stream {t : State} : StreamMove s t → Move s t
  | operation {t : State} : OperationMove s t → Move s t
  | closeEnds {n : Fin 8} : s.mgmt.slot = some (.closeWindow n) → s.drainComplete n = true →
      Move s ((s.setWindow n .unused).setSlot none)
  | phase3Ends : s.mgmt.slot = some (.softReset .phase3) → s.merge.entries = [] → Move s s.phases4to7
  | settings {g : Settings} {k : LoadKind} {st : LoadStage} (outcome : Option (Fin 4)) : s.store.load = some ⟨k, st⟩ →
      s.port.access = none → g.allowed → Move s (s.withSettings g outcome)

/-- Any number of moves, one after another. -/
abbrev Moves : State → State → Prop := Relation.ReflTransGen Move

/-- What a command does: a change of the slots' marks, if it makes one, and then moves. -/
def Acts (s t : State) : Prop := ∃ u, (u = s ∨ MarkMove s u) ∧ Moves u t

theorem Acts.of_moves {s t : State} (h : Moves s t) : Acts s t := ⟨s, .inl rfl, h⟩

theorem Acts.of_mark {s u t : State} (h : MarkMove s u) (hm : Moves u t) : Acts s t := ⟨u, .inr h, hm⟩

theorem Acts.trans_moves {s u t : State} (h : Acts s u) (hm : Moves u t) : Acts s t := by
  obtain ⟨v, hv, hu⟩ := h
  exact ⟨v, hv, hu.trans hm⟩

/-- A predicate that every move keeps is kept by any number of them. -/
theorem Moves.keeps {P : State → Prop} (hP : ∀ s t, Move s t → P s → P t) {s t : State} (h : Moves s t) (hs : P s) : P t := by
  induction h with
  | refl => exact hs
  | tail _ hm ih => exact hP _ _ hm ih

theorem Acts.keeps {P : State → Prop} (hk : ∀ s t, MarkMove s t → P s → P t) (hP : ∀ s t, Move s t → P s → P t) {s t : State}
    (h : Acts s t) (hs : P s) : P t := by
  obtain ⟨u, rfl | hu, hm⟩ := h
  · exact hm.keeps hP hs
  · exact hm.keeps hP (hk _ _ hu hs)

/-! ### What the moves of several blocks leave alone -/

/-- The access of a STREAM read is abandoned (R110, R138). -/
def Access.abandonStream (a : Access) : Access := if a.requester == .stream then { a with abandoned := true } else a

/-- The port is as it was but for an abort (R110): a STREAM access may be abandoned, and the stream wait count is no more. -/
def MemoryPort.abortedTo (p p' : MemoryPort) : Prop :=
  p' = { p with access := p'.access, streamWait := p'.streamWait }
  ∧ (p'.access = p.access ∨ p'.access = p.access.map Access.abandonStream) ∧ p'.streamWait ≤ p.streamWait

theorem MemoryPort.abortedTo_refl (p : MemoryPort) : p.abortedTo p := ⟨rfl, .inl rfl, le_rfl⟩

/-- The operation changes the damage list, the streamer and the link, and the port at most by an abort. -/
def StreamFrame (s t : State) : Prop :=
  t = { s with damage := t.damage, streamer := t.streamer, link := t.link, port := t.port } ∧ s.port.abortedTo t.port

theorem StreamFrame.of_only {f : State → State} (h : StreamerOnly f) (s : State) : StreamFrame s (f s) := by
  have hp : (f s).port = s.port := by rw [h s]
  exact ⟨by rw [h s], by rw [hp]; exact s.port.abortedTo_refl⟩

/-- The frame does not depend on the streamer, the damage list and the link that an operation starts from. -/
theorem StreamFrame.from {s u t : State} (h : StreamFrame u t) (hu : StreamFrame s u) (hp : u.port = s.port ∨ t.port = u.port) :
    StreamFrame s t := by
  obtain ⟨h1, h2⟩ := h
  obtain ⟨h3, h4⟩ := hu
  refine ⟨by rw [h1, h3], ?_⟩
  rcases hp with hp | hp
  · exact hp ▸ h2
  · exact hp.symm ▸ h4

theorem State.abortRegion_frame (s : State) : StreamFrame s s.abortRegion := by
  refine ⟨rfl, rfl, .inr rfl, ?_⟩
  simp only [State.abortRegion]
  split <;> omega

/-- Damage, streamer and link are set. -/
theorem StreamFrame.set (s : State) (d : DamageList) (r : Streamer) (l : PanelLink) :
    StreamFrame s { s with damage := d, streamer := r, link := l } := ⟨rfl, s.port.abortedTo_refl⟩

end Sys2Proof.Machine
end


section
/-!
PROOF. The frames of the moves: which blocks each of them leaves alone.
-/

namespace Sys2Proof.Machine

/-! ### A new mode (R116 to R118) -/

section
variable {s : State}

/-- FREE mode in OFF and WAIT_SYNC leads to IDLE, where a record is taken (R117). -/
theorem State.setMode_free_takes (h : s.streamer.state = .off ∨ s.streamer.state = .waitSync) : s.setMode .free
    = State.takeIfIdle { s with streamer := { s.streamer with mode := .free, passOpen := false, state := .idle } } := by
  rcases h with h | h <;> simp [State.setMode, h]

theorem State.setMode_free_stays (h : ¬ (s.streamer.state = .off ∨ s.streamer.state = .waitSync)) :
    s.setMode .free = { s with streamer := { s.streamer with mode := .free, passOpen := false } } := by
  cases hs : s.streamer.state <;> simp_all [State.setMode]

/-- GATED mode in OFF and IDLE leads to WAIT_SYNC (R118). -/
theorem State.setMode_gated_waits (h : s.streamer.state = .off ∨ s.streamer.state = .idle) :
    s.setMode .gated = { s with streamer := { s.streamer with mode := .gated, state := .waitSync } } := by
  rcases h with h | h <;> simp [State.setMode, h]

theorem State.setMode_gated_stays (h : ¬ (s.streamer.state = .off ∨ s.streamer.state = .idle)) :
    s.setMode .gated = { s with streamer := { s.streamer with mode := .gated } } := by
  cases hs : s.streamer.state <;> simp_all [State.setMode]

end

/-! ### The streamer's operations -/

theorem State.takeIfIdle_frame (s : State) : StreamFrame s s.takeIfIdle := .of_only State.takeIfIdle_only s

theorem State.regionEnd_frame (s : State) : StreamFrame s s.regionEnd := .of_only State.regionEnd_only s

theorem State.continuePass_frame (s : State) : StreamFrame s s.continuePass := .of_only State.continuePass_only s

theorem State.startRegion_frame (s : State) : StreamFrame s s.startRegion := .of_only State.startRegion_only s

theorem StreamFrame.trans {s t u : State} (h : StreamFrame t u) (hs : StreamFrame s t)
    (hp : t.port = s.port ∨ u.port = t.port) : StreamFrame s u := h.from hs hp

/-- An operation on the streamer after the damage list, the streamer or the link was set. -/
theorem StreamFrame.after_set {s t : State} {d : DamageList} {r : Streamer} {l : PanelLink}
    (h : StreamFrame { s with damage := d, streamer := r, link := l } t) : StreamFrame s t :=
  h.trans (StreamFrame.set s d r l) (.inl rfl)

theorem State.closeDamage_frame (s : State) (n : Fin 8) : StreamFrame s (s.closeDamage n) := by
  unfold State.closeDamage
  split
  · have h := State.regionEnd_only { s.abortRegion with damage := s.damage.remove fun r => r.window == n }
    exact (State.regionEnd_frame _).trans (⟨rfl, s.abortRegion_frame.2⟩) (.inr (by rw [h]))
  · exact StreamFrame.set s ..

theorem State.abortToOff_frame (s : State) : StreamFrame s s.abortToOff := by
  unfold State.abortToOff
  split
  · exact ⟨rfl, s.abortRegion_frame.2⟩
  · exact StreamFrame.set s ..

theorem State.setMode_frame (s : State) (m : StreamMode) : StreamFrame s (s.setMode m) := by
  cases m with
  | off => exact s.abortToOff_frame
  | free =>
    by_cases h : s.streamer.state = .off ∨ s.streamer.state = .waitSync
    · rw [State.setMode_free_takes h]
      exact (State.takeIfIdle_frame _).after_set
    · rw [State.setMode_free_stays h]
      exact StreamFrame.set s ..
  | gated =>
    by_cases h : s.streamer.state = .off ∨ s.streamer.state = .idle
    · rw [State.setMode_gated_waits h]
      exact StreamFrame.set s ..
    · rw [State.setMode_gated_stays h]
      exact StreamFrame.set s ..

theorem State.resume_frame (s : State) : StreamFrame s s.resume := by
  unfold State.resume
  split
  · exact (State.takeIfIdle_frame _).after_set
  all_goals exact StreamFrame.set s ..

/-- A move of the streamer changes the damage list, the streamer and the link, and the port at most by an abort. -/
theorem StreamMove.frame {s t : State} (h : StreamMove s t) : StreamFrame s t := by
  cases h with
  | idle => exact s.takeIfIdle_frame
  | insert _ _ _ => exact (State.takeIfIdle_frame _).after_set
  | scroll _ _ =>
    have h := State.regionEnd_only { s.abortRegion with damage := s.damage.replaceWindow ‹_› (WindowValues.full ‹_›) }
    exact (State.regionEnd_frame _).trans (⟨rfl, s.abortRegion_frame.2⟩) (.inr (by rw [h]))
  | close n => exact s.closeDamage_frame n
  | mode m => exact s.setMode_frame m
  | resume _ => exact s.resume_frame
  | accept _ => exact (State.regionEnd_frame _).after_set
  | resend _ _ _ => exact (State.startRegion_frame _).after_set
  | fail _ =>
    refine ⟨rfl, rfl, .inr rfl, Nat.zero_le _⟩
  | sync _ => exact (State.continuePass_frame _).after_set
  | replace _ _ _ | clear n | config _ _ _ _ _ | progress _ _ _ | ended _ _ | stall _ | tick => exact StreamFrame.set s ..

/-! ### The operations on the slot, the host port's state and the store -/

/-- A move of an operation changes the slot, the host port's state and the load. -/
theorem OperationMove.frame {s t : State} (h : OperationMove s t) : t = { s with
    mgmt := { s.mgmt with slot := t.mgmt.slot }
    host := { s.host with state := t.host.state }
    store := { s.store with load := t.store.load } } := by
  cases h <;> rfl

/-- A change of the slots' marks changes the store and the long-operation slot. -/
theorem MarkMove.frame {s t : State} (h : MarkMove s t) :
    t = { s with mgmt := { s.mgmt with slot := t.mgmt.slot }, store := t.store } := by
  cases h with
  | writeTaken _ _ _ => simp only [State.startWrite, State.markSlot, State.setSlot]
  | retire _ | reject _ => simp only [State.markSlot]
  | writeEnds _ _ _ => rfl

/-! ### The decode of a beat (R146) -/

/-- What a decoded beat that is not done at once becomes (R148, R152, R154): a read, a bypass write of a word of memory, or the
lane set of the applied pixels of a window. -/
inductive State.DecodesTo (s : State) (r : HostRecord) : BeatAction → Prop
  | read (c : Option Carried) (words : List Nat) : s.DecodesTo r (.read c words [])
  | bypass (b : WriteBeat) : s.decode .write (r.address + 4 * r.outcomes.length) = .bypass →
      s.DecodesTo r (.write .bypass (bypassLanes (r.address + 4 * r.outcomes.length) b) none)
  | window {c : Carried} {b : WriteBeat} : s.decode .write (r.address + 4 * r.outcomes.length) = .pixels c →
      c.lanes b ≠ [] → s.DecodesTo r (.write (.window c.window) (c.lanes b) (some (c, c.run b)))

/-- A decoded beat is done, or is put into action (R146). -/
theorem State.decodeBeat_cases (s : State) (r : HostRecord) :
    (∃ o, (s.decodeBeat r).1 = s.finishBeat o) ∨ ∃ x, (s.decodeBeat r).1 = s.setAction x ∧ s.DecodesTo r x := by
  unfold State.decodeBeat
  cases r.kind with
  | read =>
    simp only
    cases s.decode .read (r.address + 4 * r.outcomes.length) with
    | refused reason w => exact .inl ⟨_, rfl⟩
    | slack => exact .inl ⟨_, rfl⟩
    | pixels c => exact .inr ⟨_, rfl, .read _ _⟩
    | bypass => exact .inr ⟨_, rfl, .read _ _⟩
  | write =>
    simp only
    cases hd : s.decode .write (r.address + 4 * r.outcomes.length) with
    | refused reason w => exact .inl ⟨_, rfl⟩
    | slack => exact .inl ⟨_, rfl⟩
    | pixels c =>
      simp only [State.carryWrite, State.handOver, List.isEmpty_iff]
      split
      · exact .inl ⟨_, rfl⟩
      · split
        · exact .inl ⟨_, rfl⟩
        · exact .inr ⟨_, rfl, .window hd (by assumption)⟩
    | bypass =>
      simp only [State.carryWrite, State.handOver]
      split
      · exact .inl ⟨_, rfl⟩
      · exact .inr ⟨_, rfl, .bypass _ hd⟩

/-- The decode of a beat changes the host port alone. -/
theorem State.decodeBeat_only (s : State) (r : HostRecord) :
    (s.decodeBeat r).1 = { s with host := (s.decodeBeat r).1.host } := by
  rcases s.decodeBeat_cases r with ⟨o, h⟩ | ⟨x, h, _⟩ <;> rw [h] <;> rfl

end Sys2Proof.Machine
end


section
/-!
PROOF. The shared operations as moves: what follows at the same moment as a command (log 6), the memory port's outcomes, and
the passing of a microsecond.
-/

namespace Sys2Proof.Machine

variable {s t u : State}

/-! ### Events, the drain choice and the ends of long operations -/

theorem Moves.after (h : Moves t u) (hs : Move s t) : Moves s u := .head hs h

theorem moves_post (s : State) (e : Event) : Moves s (s.post e) := .single (.events (.post e))

theorem moves_posts (s : State) (es : List Event) : Moves s (es.foldl State.post s) := by
  induction es generalizing s with
  | nil => exact .refl
  | cons e es ih => exact (moves_post s e).trans (ih _)

theorem moves_postTogether (s : State) (es : List Event) : Moves s (s.postTogether es) := by
  obtain ⟨order, _, h⟩ := s.postTogether_order es
  rw [h]
  exact (moves_posts s order).tail (.free _)

theorem State.chooseDrain_merge (s : State) : s.chooseDrain = { s with merge := s.chooseDrain.merge } := by
  unfold State.chooseDrain
  split <;> rfl

theorem moves_chooseDrain (s : State) : Moves s s.chooseDrain := by
  rw [s.chooseDrain_merge]
  exact .single (.merge .choose)

theorem moves_endPhase2 (s : State) : Moves s s.endPhase2 := by
  unfold State.endPhase2
  split
  · rename_i h
    exact .head (.merge (.mark fun _ => true)) (.single (.operation (.phase2Ends h.1 h.2)))
  · exact .refl

theorem State.resetPhases_eq (s : State) : s.resetPhase4.resetPhase5.resetPhase6.resetPhase7 = s.phases4to7 := by
  unfold State.phases4to7
  cases h : s.streamer.region with
  | none => exact State.resetPhases_quiet h
  | some r => exact State.resetPhases_region (by simp [h])

theorem moves_endPhase3 (s : State) : Moves s s.endPhase3 := by
  unfold State.endPhase3
  split
  · rename_i h
    rw [State.resetPhases_eq]
    exact .single (.phase3Ends h.1 h.2)
  · exact .refl

/-- What ends with the slot's FLUSH or close (R30, R66). -/
theorem State.longOpEnd?_cases {e : Event} (h : s.longOpEnd? = some (t, e)) :
    (∃ sel, s.mgmt.slot = some (.flush sel []) ∧ t = s.setSlot none ∧ e = flushDone)
    ∨ ∃ n, s.mgmt.slot = some (.closeWindow n) ∧ s.drainComplete n = true
      ∧ t = (s.setWindow n .unused).setSlot none ∧ e = closeDone := by
  unfold State.longOpEnd? State.flushEnd? State.closeEnd? at h
  rcases hs : s.mgmt.slot with _ | (n | ⟨sel, _ | ⟨a, ws⟩⟩ | n | n | p) <;> simp only [hs] at h <;>
    simp_all

theorem moves_longOpEnd {e : Event} (h : s.longOpEnd? = some (t, e)) : Moves s t := by
  rcases State.longOpEnd?_cases h with ⟨sel, hs, rfl, _⟩ | ⟨n, hs, hd, rfl, _⟩
  · exact .single (.operation (.flushEnds hs))
  · exact .single (.closeEnds hs hd)

/-- What settles after a command is a sequence of moves (log 6). -/
theorem moves_settle (s : State) (es : List Event) : Moves s (s.settle es) := by
  unfold State.settle
  split
  · rename_i h
    exact ((moves_longOpEnd h).trans (moves_postTogether _ _)).trans (moves_chooseDrain _)
  · exact (((moves_postTogether _ _).trans (moves_endPhase2 _)).trans (moves_endPhase3 _)).trans (moves_chooseDrain _)

/-! ### Beats -/

theorem moves_finishBeat (s : State) (o : BeatOutcome) : Moves s (s.finishBeat o) := .single (.host (.finish o))

/-- What a taken beat's run inserts, with the window it is for (R77). -/
theorem State.runDamage?_cases {run : Option (Carried × Rect)} {w : Fin 8} {q : Rect} (h : s.runDamage? run = some (w, q)) :
    ∃ d r v, run = some (d, r) ∧ w = d.window ∧ s.window w = .active v ∧ (q = r ∨ q = v.full) := by
  rcases run with _ | ⟨d, r⟩
  · simp [State.runDamage?] at h
  · simp only [State.runDamage?, Option.ite_none_left_eq_some, Option.map_eq_some_iff, Window.active?_eq_some] at h
    obtain ⟨_, v, hv, h⟩ := h
    simp only [Prod.mk.injEq] at h
    obtain ⟨rfl, rfl⟩ := h
    exact ⟨d, r, v, rfl, rfl, hv, by split <;> simp⟩

theorem moves_insertRun {c : Creator} {lanes : List LaneWrite} {run : Option (Carried × Rect)}
    (h : s.host.action = some (.write c lanes run)) : Moves s (s.insertRun run) := by
  unfold State.insertRun
  split
  · rename_i w q hq
    obtain ⟨d, r, v, rfl, rfl, hv, hr⟩ := State.runDamage?_cases hq
    refine .single (.stream (.insert hv ?_ (.inl ?_)))
    · rcases hr with rfl | rfl
      · exact .inr (.inr ⟨c, lanes, d, h, rfl⟩)
      · exact .inr (.inl rfl)
    · simp [HostPort.writeBeat, h]
  · exact .refl

theorem moves_arrive {c : Creator} {lanes : List LaneWrite} {run : Option (Carried × Rect)}
    (h : s.host.action = some (.write c lanes run)) (ht : s.merge.canTake lanes = true) : Moves s (s.arrive c lanes run) := by
  refine .head (.merge (.take (s.marksNew c) (s.port.serves .drain) h ht)) ?_
  unfold State.arrive
  refine .trans (moves_insertRun (c := c) (lanes := lanes) ?_) (moves_finishBeat _ _)
  exact h

theorem moves_takeWaiting (s : State) : Moves s s.takeWaiting.1 := by
  unfold State.takeWaiting
  split
  · split
    · exact moves_arrive ‹_› ‹_›
    · exact .refl
  · exact .refl
  · exact .refl

theorem moves_afterRemoval (s : State) (es : List Event) : Moves s (s.afterRemoval es) :=
  (moves_takeWaiting s).trans (moves_settle _ _)

theorem moves_removeDrain (s : State) : Moves s s.removeDrain := by
  unfold State.removeDrain
  split
  · exact .refl
  · exact .head (.merge .remove) (.single (.operation (.drop _)))

/-! ### The memory port -/

theorem moves_hostReadFails (s : State) (a : Nat) : Moves s (s.hostReadFails a) := by
  unfold State.hostReadFails
  split
  · exact (moves_finishBeat _ _).trans (moves_settle _ _)
  · exact .refl
  · exact .refl

theorem moves_drainFails (s : State) (write : Bool) : Moves s (s.drainFails write) := by
  unfold State.drainFails
  split
  · exact .refl
  · split
    · exact (moves_removeDrain _).trans (moves_afterRemoval _ _)
    · exact .single (.merge .retry)

theorem moves_streamFails (s : State) (a : Nat) : Moves s (s.streamFails a) := by
  unfold State.streamFails
  split
  · exact .refl
  · rename_i h
    exact .head (.stream (.fail (by simp [h]))) (moves_post _ _)

theorem moves_failed (s : State) (a : Access) : Moves s (s.failed a) := by
  unfold State.failed
  split
  · exact .refl
  · cases a.requester with
    | hostRead => exact moves_hostReadFails _ _
    | drain => exact moves_drainFails _ _
    | stream => exact moves_streamFails _ _

theorem moves_freePort (s : State) : Moves s s.freePort := .single (.port (.free (w := s.port.streamWait) id))

theorem moves_hostAnswer (s : State) (w : Word) : Moves s (s.hostAnswer w) := by
  unfold State.hostAnswer
  split
  · rename_i h
    simp only
    split
    · exact (moves_finishBeat _ _).trans (moves_settle _ _)
    · exact .single (.host (.join _ h))
  · exact .refl
  · exact .refl

theorem moves_streamAnswer (s : State) (w : Word) : Moves s (s.streamAnswer w) := by
  unfold State.streamAnswer
  split
  · exact .refl
  · split
    · exact .refl
    · refine .single (.stream (.progress ‹_› ?_ ?_)) <;> split <;> rfl

theorem moves_answered (s : State) (a : Access) (md : Word) : Moves s (s.answered a md) := by
  unfold State.answered
  split
  · exact .refl
  · cases a.requester with
    | hostRead => exact moves_hostAnswer _ _
    | stream => exact moves_streamAnswer _ _
    | drain =>
      cases a.write with
      | none => exact .single (.merge (.fetch md))
      | some w => exact (moves_removeDrain _).trans (moves_afterRemoval _ _)

/-- STREAM is granted at a stream wait count of 8 (R132), so that no grant takes the count beyond. -/
theorem State.waitAfter_le {g : Grant} (h : s.grantChoice = some g) (hw : s.port.streamWait ≤ 8) :
    s.waitAfter g.requester ≤ 8 := by
  unfold State.waitAfter
  split
  · omega
  · rename_i hr
    split
    · rename_i hq
      by_cases h8 : Config.streamGuard ≤ s.port.streamWait
      · obtain ⟨a, ha⟩ := Option.isSome_iff_exists.mp hq
        simp only [State.grantChoice, ha, h8, Option.map_some, if_true] at h
        have : g = ⟨.stream, a, none⟩ := by simpa using h.symm
        exact absurd (by rw [this]) hr
      · simp only [Config.streamGuard] at h8
        omega
    · exact hw

/-- A write that DRAIN presents is that of a drain entry in PENDING_WRITE or WRITING (R56, R59). -/
theorem State.drainRequest?_write {a : Nat} {w : Option Word} (h : s.drainRequest? = some (a, w)) (hw : w.isSome = true) :
    ∃ e, s.merge.drain? = some e ∧ (e.state = .pendingWrite ∨ e.state = .writing) := by
  unfold State.drainRequest? at h
  split at h
  · simp at h
  · cases hd : s.merge.drain? with
    | none => simp [hd] at h
    | some e => cases he : e.state <;> grind

/-- The entry of a granted write becomes WRITING before the access begins (R59). -/
theorem moves_startEntry {g : Grant} (h : s.grantChoice = some g) : Moves s { s with merge := (s.start g).merge } := by
  unfold State.start
  simp only
  split
  · rename_i hg
    rcases State.grantChoice_cases h with ⟨a, _, rfl⟩ | ⟨a, _, rfl⟩ | ⟨d, hd, rfl⟩
    · simp at hg
    · simp at hg
    · obtain ⟨e, he, hst⟩ := State.drainRequest?_write hd hg.2
      exact .single (.merge (.grant he hst))
  · exact .refl

theorem moves_grant {g : Grant} (h : s.grantChoice = some g) (hp : s.port.access = none) : Moves s (s.grant g) := by
  have hw := State.waitAfter_le h
  refine (moves_startEntry h).trans ?_
  unfold State.grant
  simp only
  split
  · exact .single (.port (.grant hp ‹_› rfl hw))
  · exact .head (.port (.free hw)) (moves_failed _ _)

/-! ### Time -/

theorem moves_answerFailure (h : s.streamer.state = .awaitAnswer) (cause : LinkCause) : Moves s (s.answerFailure cause) := by
  unfold State.answerFailure
  split
  · exact .refl
  · split
    · exact .single (.stream (.resend h ‹_› ‹_›))
    · rename_i hr _
      exact .head (.stream (.stall (by simp [hr]))) (moves_post _ _)

theorem moves_advance (s : State) : Moves s s.advance :=
  .head (.merge (.age 1)) (.head (.port .tick) (.single (.stream .tick)))

theorem moves_expireAccess (s : State) : Moves s s.expireAccess := by
  unfold State.expireAccess
  split
  · split
    · exact (moves_freePort s).trans (moves_failed _ _)
    · exact .refl
  · exact .refl

theorem moves_expireAnswer (s : State) : Moves s s.expireAnswer := by
  unfold State.expireAnswer
  split
  · rename_i h
    simp only [State.answerExpired, Bool.and_eq_true, beq_iff_eq] at h
    exact moves_answerFailure h.1 _
  · exact .refl

theorem moves_expire (s : State) : Moves s s.expire := by
  unfold State.expire
  split
  · simp only
    refine .head (.free (s.freeCount + 1)) ?_
    split
    · exact (moves_expireAccess _).trans (moves_expireAnswer _)
    · exact (moves_expireAnswer _).trans (moves_expireAccess _)
  · exact (moves_expireAccess _).trans (moves_expireAnswer _)

/-- A microsecond in which no command comes is a sequence of moves (log 2). -/
theorem moves_tick (s : State) : Moves s s.tick :=
  ((moves_advance s).trans (moves_expire _)).trans (moves_chooseDrain _)

end Sys2Proof.Machine
end


section
/-!
PROOF. Every command and the step as moves: `exec_reaches` and `step_reaches`.
-/

namespace Sys2Proof.Machine

variable {s t u : State}

/-! ### A window's record replaced by one of the same values -/

theorem State.setWindow_same (s : State) (n : Fin 8) (w : Window) : (s.setWindow n w).window n = w := by
  simp [State.window, State.setWindow]

theorem State.setWindow_other (s : State) {n m : Fin 8} (w : Window) (h : m ≠ n) :
    (s.setWindow n w).window m = s.window m := by
  simp [State.window, State.setWindow, Fin.val_inj, Ne.symm h]

theorem State.window_setWindow (s : State) (n m : Fin 8) (w : Window) :
    (s.setWindow n w).window m = if m = n then w else s.window m := by
  split
  · rename_i h
    rw [h, s.setWindow_same]
  · exact s.setWindow_other w ‹_›

section
variable {n : Fin 8} {w : Window} (hw : w.values? = (s.window n).values?)
include hw

theorem State.values_setWindow (m : Fin 8) : ((s.setWindow n w).window m).values? = (s.window m).values? := by
  rw [State.window_setWindow]
  split
  · rename_i h
    rw [h, hw]
  · rfl

theorem State.streamRequest?_setWindow : (s.setWindow n w).streamRequest? = s.streamRequest? := by
  have h : (s.setWindow n w).regionWords = s.regionWords := by
    funext r
    have := State.values_setWindow hw r.window
    simp only [State.window] at this
    simp only [State.regionWords, State.regionValues?, this]
  simp only [State.streamRequest?, h, State.setWindow_port, State.setWindow_streamer]

theorem State.abortRegion_setWindow : (s.setWindow n w).abortRegion = s.abortRegion.setWindow n w := by
  simp only [State.abortRegion, State.streamRequest?_setWindow hw]
  rfl

theorem State.withTaken_setWindow (p : Record → Bool) (r : Record) :
    (s.setWindow n w).withTaken p r = (s.withTaken p r).setWindow n w := by
  unfold State.withTaken
  rw [State.values_setWindow hw r.window]
  rfl

theorem State.takeIfIdle_setWindow : (s.setWindow n w).takeIfIdle = s.takeIfIdle.setWindow n w := by
  by_cases hs : s.streamer.state = .idle
  · cases hr : s.damage.records.find? Record.isPending with
    | none => rw [State.takeIfIdle_same (.inr hr), State.takeIfIdle_same (s := s.setWindow n w) (.inr hr)]
    | some r =>
      rw [State.takeIfIdle_taken hs hr, State.takeIfIdle_taken (s := s.setWindow n w) hs hr, State.withTaken_setWindow hw]
  · rw [State.takeIfIdle_same (.inl hs), State.takeIfIdle_same (s := s.setWindow n w) (.inl hs)]

theorem State.continuePass_setWindow : (s.setWindow n w).continuePass = s.continuePass.setWindow n w := by
  cases hr : s.damage.records.find? Record.isMarked with
  | none => rw [State.continuePass_over hr, State.continuePass_over (s := s.setWindow n w) hr]; rfl
  | some r =>
    rw [State.continuePass_taken hr, State.continuePass_taken (s := s.setWindow n w) hr, State.withTaken_setWindow hw]

theorem State.regionEnd_setWindow : (s.setWindow n w).regionEnd = s.regionEnd.setWindow n w := by
  cases hm : s.streamer.mode with
  | off => rw [State.regionEnd_off hm, State.regionEnd_off (s := s.setWindow n w) hm]; rfl
  | free =>
    rw [State.regionEnd_free hm, State.regionEnd_free (s := s.setWindow n w) hm]
    exact State.takeIfIdle_setWindow (s := { s with
      streamer := { s.streamer with region := none, answerTimer := none, state := .idle } }) hw
  | gated =>
    cases hp : s.streamer.passOpen with
    | false => rw [State.regionEnd_closed hm hp, State.regionEnd_closed (s := s.setWindow n w) hm hp]; rfl
    | true =>
      rw [State.regionEnd_open hm hp, State.regionEnd_open (s := s.setWindow n w) hm hp]
      exact State.continuePass_setWindow
        (s := { s with streamer := { s.streamer with region := none, answerTimer := none } }) hw

/-- A close's part in the damage list and the streamer does not depend on its window's state. -/
theorem State.closeDamage_setWindow : (s.setWindow n w).closeDamage n = (s.closeDamage n).setWindow n w := by
  unfold State.closeDamage
  rw [State.setWindow_regionOf]
  split
  · rw [State.abortRegion_setWindow hw]
    exact State.regionEnd_setWindow
      (s := { s.abortRegion with damage := s.damage.remove fun r => r.window == n }) hw
  · rfl

end

/-! ### What the streamer's taking leaves of the records -/

/-- The record but for its state. -/
def Record.core (r : Record) : Record := { r with state := .pending }

/-- The operation leaves the records alone but for their states. -/
def State.sameRecords (s t : State) : Prop :=
  t.damage.records.map Record.core = s.damage.records.map Record.core ∧ t.damage.nextTouch = s.damage.nextTouch

theorem State.withTaken_records (s : State) (p : Record → Bool) (r : Record) : s.sameRecords (s.withTaken p r) :=
  
  ⟨modifyFirst_map Record.core (by exact fun _ => rfl) _, rfl⟩

theorem State.takeIfIdle_records (s : State) : s.sameRecords s.takeIfIdle := by
  rcases hp : s.damage.records.find? Record.isPending with _ | r
  · rw [State.takeIfIdle_same (.inr hp)]; exact ⟨rfl, rfl⟩
  · by_cases hs : s.streamer.state = .idle
    · rw [State.takeIfIdle_taken hs hp]; exact s.withTaken_records _ _
    · rw [State.takeIfIdle_same (.inl hs)]; exact ⟨rfl, rfl⟩

theorem State.continuePass_records (s : State) : s.sameRecords s.continuePass := by
  rcases hp : s.damage.records.find? Record.isMarked with _ | r
  · rw [State.continuePass_over hp]; exact ⟨rfl, rfl⟩
  · rw [State.continuePass_taken hp]; exact s.withTaken_records _ _

theorem State.regionEnd_records (s : State) : s.sameRecords s.regionEnd := by
  cases hm : s.streamer.mode with
  | off => rw [State.regionEnd_off hm]; exact ⟨rfl, rfl⟩
  | free =>
    rw [State.regionEnd_free hm]
    exact State.takeIfIdle_records { s with
      streamer := { s.streamer with region := none, answerTimer := none, state := .idle } }
  | gated =>
    cases hp : s.streamer.passOpen with
    | false => rw [State.regionEnd_closed hm hp]; exact ⟨rfl, rfl⟩
    | true =>
      rw [State.regionEnd_open hm hp]
      exact State.continuePass_records { s with streamer := { s.streamer with region := none, answerTimer := none } }

theorem State.sameRecords.mem {r : Record} (h : s.sameRecords t) (hr : r ∈ t.damage.records) :
    ∃ q ∈ s.damage.records, q.core = r.core := by
  have : r.core ∈ s.damage.records.map Record.core := h.1 ▸ List.mem_map_of_mem hr
  simpa using this

theorem State.closeDamage_records (s : State) (n : Fin 8) :
    State.sameRecords { s with damage := s.damage.remove fun r => r.window == n } (s.closeDamage n) := by
  unfold State.closeDamage
  split
  · exact State.regionEnd_records { s.abortRegion with damage := s.damage.remove fun r => r.window == n }
  · exact ⟨rfl, rfl⟩

/-- No record of a window is left at its close (R86). -/
theorem State.closeDamage_window (s : State) (n : Fin 8) : ∀ r ∈ (s.closeDamage n).damage.records, r.window ≠ n := by
  intro r hr
  obtain ⟨q, hq, h⟩ := (s.closeDamage_records n).mem hr
  have hn : q.window ≠ n := by simpa [DamageList.remove] using (List.mem_filter.mp hq).2
  rwa [show r.window = q.window from (congrArg Record.window h).symm]

/-! ### The meanings of the frames -/

theorem moves_startSoftReset (h : s.ready) (hw : ∀ n, s.mgmt.slot ≠ some (.profileWrite n))
    (hp : ∀ p, s.mgmt.slot ≠ some (.softReset p)) : Moves s s.startSoftReset :=
  .head (.operation (.resetTaken h hw hp)) (moves_settle _ _)

theorem moves_startClose {n : Fin 8} {v : WindowValues} (h : s.ready) (hs : s.mgmt.slot = none)
    (hv : s.window n = .active v) : Moves s (s.startClose n v) := by
  unfold State.startClose
  simp only
  rw [State.closeDamage_setWindow (by rw [hv]; rfl)]
  obtain ⟨hf, _⟩ := s.closeDamage_frame n
  have hv' : (s.closeDamage n).window n = .active v := by rw [hf]; exact hv
  refine .head (.stream (.close n)) (.head (.table (.drain hv' (s.closeDamage_window n)))
    (.head (.merge (.mark fun e => e.creator == .window n)) (.head (.operation (.closeTaken (v := v) ?_ ?_ ?_)) (moves_settle _ _))))
  · rw [hf]; exact h
  · rw [hf]; exact hs
  · exact State.setWindow_same (s.closeDamage n) n (.draining v)

theorem moves_setWindow_change {n : Fin 8} {v v' : WindowValues} (h : s.window n = .active v) (hk : v.keeps v') :
    Moves s (s.setWindow n (.active v')) := .single (.table (.change h hk))

theorem moves_insertDamage {w : Fin 8} {v : WindowValues} {q : Rect} (hw : s.window w = .active v) (hq : s.admits w v q)
    (h : s.ready) (hr : s.resetOrLoad = false) : Moves s (s.insertDamage w q).takeIfIdle := by
  rw [State.insertDamage_takeIfIdle]
  exact .head (.stream (.insert hw hq (.inr ⟨h, hr⟩))) (moves_posts _ _)

/-- With tracking on the change of the scroll reaches the damage list and the streamer (R33). -/
theorem moves_scrollDamage {n : Fin 8} {v : WindowValues} (hw : s.window n = .active v) (h : s.ready)
    (hr : s.resetOrLoad = false) : Moves s (s.scrollDamage n v) := by
  unfold State.scrollDamage
  split
  · exact .refl
  · split
    · exact .single (.stream (.scroll hw ‹_›))
    · split
      · exact .single (.stream (.replace hw (by simpa using ‹¬ s.regionOf n = true›) ‹_›))
      · exact moves_insertDamage hw (.inr (.inl rfl)) h hr

theorem WindowValues.inRange_scroll {v : WindowValues} {y : Nat} (h : y < v.height) (hv : v.inRange = true) :
    WindowValues.inRange { v with scroll := y } = true := by
  simp only [WindowValues.inRange, Bool.and_eq_true, decide_eq_true_eq] at hv ⊢
  simp only [hv, h, and_self]

theorem moves_changeScroll {n : Fin 8} {v : WindowValues} {y : Nat} (hw : s.window n = .active v) (h : s.ready)
    (hr : s.resetOrLoad = false) (hy : y < v.height) : Moves s (s.changeScroll n v y) := by
  unfold State.changeScroll
  split
  · exact .refl
  · refine (moves_setWindow_change hw ⟨rfl, WindowValues.inRange_scroll hy⟩).trans (moves_scrollDamage ?_ h hr)
    exact s.setWindow_same ..

theorem moves_startFlush (h : s.ready) (hs : s.mgmt.slot = none) (sel : Option (Fin 8)) : Moves s (s.startFlush sel) := by
  unfold State.startFlush
  exact .head (.merge (.mark (selects sel))) (.head (.operation (.flushTaken _ _ h hs)) (moves_settle _ _))

/-! ### Frames (R160, R165) -/

/-- The frame is answered after what it does. -/
def State.RepliesAs (s t : State) : Prop := ∃ u d, Acts s u ∧ t = u.reply d

theorem State.RepliesAs.same (s : State) (d : List Byte) : s.RepliesAs (s.reply d) := ⟨s, d, .of_moves .refl, rfl⟩

theorem State.RepliesAs.of_moves (h : Moves s u) (d : List Byte) : s.RepliesAs (u.reply d) := ⟨u, d, .of_moves h, rfl⟩

theorem State.RepliesAs.of_move (h : Move s u) (d : List Byte) : s.RepliesAs (u.reply d) := .of_moves (.single h) d

theorem State.RepliesAs.of_mark (h : MarkMove s u) (d : List Byte) : s.RepliesAs (u.reply d) := ⟨u, d, .of_mark h .refl, rfl⟩

theorem State.RepliesAs.ite {p : Prop} [Decidable p] {a b : State} (ha : p → s.RepliesAs a) (hb : ¬ p → s.RepliesAs b) :
    s.RepliesAs (if p then a else b) := by
  split
  · exact ha ‹_›
  · exact hb ‹_›

/-- The command is answered after what it does. -/
def State.Answers (s : State) (c : Instr) : Prop := ∃ t, exec c s = .next t ∧ s.RepliesAs t

section
variable (h : s.ready)
include h

theorem answers_softReset : s.Answers .softReset := by
  refine ⟨_, exec_softReset h, ?_⟩
  split
  · exact .same ..
  · exact .same ..
  all_goals exact .of_moves (moves_startSoftReset h (by simp [*]) (by simp [*])) _

theorem answers_stageWindow (d : List Byte) : s.Answers (.stageWindow d) :=
  ⟨_, exec_stageWindow d h, .ite (fun _ => .same ..) fun _ => .ite (fun _ => .same ..) fun _ =>
    .ite (fun _ => .same ..) fun hm => .of_move (.table (.stage (Bool.eq_false_iff.mpr hm))) _⟩

omit h in
/-- The checks of OPEN_WINDOW have passed (R22). -/
theorem State.openTarget_ok {b : Byte} {w : Fin 8} {v : WindowValues} (ho : s.openTarget b = .ok (w, v)) :
    s.resetOrLoad = false ∧ s.window w = .unused
      ∧ ∃ d, s.table.staging = some d ∧ openChecks s.table s.port.memSize d = .ok v := by
  unfold State.openTarget at ho
  cases hb : windowNumber b with
  | none => simp [hb] at ho
  | some n =>
    simp only [hb] at ho
    split at ho
    · cases ho
    · split at ho
      · cases ho
      · cases hd : s.table.staging with
        | none => simp [hd] at ho
        | some d =>
          cases hc : openChecks s.table s.port.memSize d with
          | error r => simp [hd, hc] at ho
          | ok x =>
            simp only [hd, hc, Except.ok.injEq, Prod.mk.injEq] at ho
            obtain ⟨rfl, rfl⟩ := ho
            exact ⟨by simp_all, by simp_all, d, rfl, hc⟩

theorem answers_openWindow (b : Byte) : s.Answers (.openWindow b) := by
  refine ⟨_, exec_openWindow b h, ?_⟩
  split
  · exact .same ..
  · obtain ⟨hr, hw, d, _, hd⟩ := State.openTarget_ok ‹_›
    exact .of_move (.table (.opens h hr hw hd)) _

theorem answers_closeWindow (b : Byte) : s.Answers (.closeWindow b) := by
  refine ⟨_, exec_closeWindow b h, ?_⟩
  split
  · exact .same ..
  · refine .ite (fun _ => .same ..) fun hs => ?_
    split
    · exact .same ..
    · exact .of_moves (moves_startClose h (Option.not_isSome_iff_eq_none.mp hs) (Window.active?_eq_some.mp ‹_›)) _

theorem answers_queryWindow (b : Byte) : s.Answers (.queryWindow b) := by
  refine ⟨_, exec_queryWindow b h, ?_⟩
  split <;> exact .same ..

theorem answers_setScroll (b : Byte) (y : BitVec 16) : s.Answers (.setScroll b y) := by
  refine ⟨_, exec_setScroll b y h, ?_⟩
  split
  · exact .same ..
  · obtain ⟨_, hr, hw⟩ := State.activeTarget_ok.mp ‹_›
    exact .ite (fun _ => .same ..) fun hy => .of_moves (moves_changeScroll hw h hr (Nat.lt_of_not_le hy)) _

theorem answers_setKey (b : Byte) (k : Option Word) : s.Answers (.setKey b k) := by
  refine ⟨_, exec_setKey b k h, ?_⟩
  split
  · exact .same ..
  · obtain ⟨_, _, hw⟩ := State.activeTarget_ok.mp ‹_›
    refine .ite (fun _ => .same ..) fun hk => .of_moves (moves_setWindow_change hw ⟨rfl, fun hv => ?_⟩) _
    simp only [WindowValues.inRange, Bool.and_eq_true, decide_eq_true_eq] at hv ⊢
    cases k <;> simp_all

theorem answers_setClip (b : Byte) (c : Option PackedRect) : s.Answers (.setClip b c) := by
  refine ⟨_, exec_setClip b c h, ?_⟩
  split
  · exact .same ..
  · obtain ⟨_, _, hw⟩ := State.activeTarget_ok.mp ‹_›
    refine .ite (fun _ => .same ..) fun hc => .of_moves (moves_setWindow_change hw ⟨rfl, fun hv => ?_⟩) _
    simp only [WindowValues.inRange, Bool.and_eq_true, decide_eq_true_eq] at hv ⊢
    cases c <;> simp_all

theorem answers_setAccess (b m : Byte) : s.Answers (.setAccess b m) := by
  refine ⟨_, exec_setAccess b m h, ?_⟩
  split
  · exact .same ..
  · obtain ⟨_, _, hw⟩ := State.activeTarget_ok.mp ‹_›
    split
    · exact .same ..
    · refine .of_moves (moves_setWindow_change hw ?_) _
      exact ⟨rfl, id⟩

theorem answers_flush (b : Byte) : s.Answers (.flush b) := by
  refine ⟨_, exec_flush b h, ?_⟩
  split
  · exact .same ..
  · exact .ite (fun _ => .same ..) fun hs => .of_moves (moves_startFlush h (Option.not_isSome_iff_eq_none.mp hs) _) _

theorem answers_queueConfig (hw lg : Byte) : s.Answers (.queueConfig hw lg) :=
  ⟨_, exec_queueConfig hw lg h, .ite (fun _ => .same ..) fun hb =>
    .of_moves (.head (.merge (.config (by omega) (by omega) (by omega))) (moves_chooseDrain _)) _⟩

theorem answers_damageAdd (b : Byte) (r : PackedRect) : s.Answers (.damageAdd b r) := by
  refine ⟨_, exec_damageAdd b r h, ?_⟩
  split
  · exact .same ..
  · obtain ⟨_, hr, hw⟩ := State.activeTarget_ok.mp ‹_›
    exact .ite (fun _ => .same ..) fun _ => .ite (fun _ => .same ..) fun hq =>
      .of_moves (moves_insertDamage hw (.inl (by simpa using hq)) h hr) _

theorem answers_damageClear (b : Byte) : s.Answers (.damageClear b) := by
  refine ⟨_, exec_damageClear b h, ?_⟩
  split
  · exact .same ..
  · exact .ite (fun _ => .same ..) fun _ => .of_move (.stream (.clear _)) _

theorem answers_streamMode (m : Byte) : s.Answers (.streamMode m) := by
  refine ⟨_, exec_streamMode m h, ?_⟩
  split
  · exact .same ..
  · exact .ite (fun _ => .same ..) fun _ => .of_move (.stream (.mode _)) _

theorem answers_streamConfig (f l r : Byte) : s.Answers (.streamConfig f l r) := by
  refine ⟨_, exec_streamConfig f l r h, ?_⟩
  split
  · exact .same ..
  · exact .ite (fun _ => .same ..) fun hb => .ite (fun _ => .same ..) fun _ => .ite (fun _ => .same ..) fun ho =>
      .of_move (.stream (.config _ (not_not.mp ho) (by omega) (by omega) (by omega))) _

theorem answers_streamResume : s.Answers .streamResume :=
  ⟨_, exec_streamResume h, .ite (fun _ => .same ..) fun _ => .ite (fun _ => .same ..) fun hs =>
    .of_move (.stream (.resume (not_not.mp hs))) _⟩

theorem answers_irqMask (m : Option Byte) : s.Answers (.irqMask m) := by
  refine ⟨_, exec_irqMask m h, ?_⟩
  split
  · exact .same ..
  · exact .ite (fun _ => .same ..) fun _ => .of_move (.events (.mask _)) _

theorem answers_profileWrite : s.Answers .profileWrite := by
  refine ⟨_, exec_profileWrite h, ?_⟩
  split
  · exact .same ..
  · exact .ite (fun _ => .same ..) fun hs => .ite (fun _ => .same ..) fun hb =>
      .of_mark (.writeTaken h (Option.not_isSome_iff_eq_none.mp hs) (not_not.mp hb)) _

theorem answers_profileRetire : s.Answers .profileRetire := by
  refine ⟨_, exec_profileRetire h, ?_⟩
  split
  · exact .same ..
  · exact .ite (fun _ => .same ..) fun _ => .ite (fun _ => .same ..) fun hw =>
      .of_mark (.retire (not_not.mp hw)) _

theorem answers_profileLoad (b : Byte) : s.Answers (.profileLoad b) := by
  refine ⟨_, exec_profileLoad b h, ?_⟩
  split
  · exact .same ..
  · exact .ite (fun _ => .same ..) fun hs => .ite (fun _ => .same ..) fun hq => .ite (fun _ => .same ..) fun _ =>
      .of_move (.operation (.loadTaken h (Option.not_isSome_iff_eq_none.mp hs) (by simpa using hq))) _

/-- What every frame does that is taken (R160, R165): some moves and a reply; PROFILE_ARM leaves an arm. -/
theorem frame_replies {c : Instr} (hc : c.isFrame = true) : s.Answers c ∨ ∃ (b : Byte) (k : Fin 4), c = .profileArm b
    ∧ b.toNat = k.val ∧ exec c s = .next { s with mgmt := { s.mgmt with response := [0x00], arm := some k } } := by
  cases c with
  | brokenFrame => exact .inl ⟨_, exec_brokenFrame h, .same ..⟩
  | unknownCommandFrame => exact .inl ⟨_, exec_unknownCommandFrame h, .same ..⟩
  | status => exact .inl ⟨_, exec_status h, .same ..⟩
  | ident => exact .inl ⟨_, exec_ident h, .same ..⟩
  | damageRead => exact .inl ⟨_, exec_damageRead h, .same ..⟩
  | eventsRead => exact .inl ⟨_, exec_eventsRead h, .of_move (.events .read) _⟩
  | softReset => exact .inl (answers_softReset h)
  | stageWindow d => exact .inl (answers_stageWindow h d)
  | openWindow b => exact .inl (answers_openWindow h b)
  | closeWindow b => exact .inl (answers_closeWindow h b)
  | queryWindow b => exact .inl (answers_queryWindow h b)
  | setScroll b y => exact .inl (answers_setScroll h b y)
  | setKey b k => exact .inl (answers_setKey h b k)
  | setClip b c => exact .inl (answers_setClip h b c)
  | setAccess b m => exact .inl (answers_setAccess h b m)
  | flush b => exact .inl (answers_flush h b)
  | queueConfig hw lg => exact .inl (answers_queueConfig h hw lg)
  | damageAdd b r => exact .inl (answers_damageAdd h b r)
  | damageClear b => exact .inl (answers_damageClear h b)
  | streamMode m => exact .inl (answers_streamMode h m)
  | streamConfig f l r => exact .inl (answers_streamConfig h f l r)
  | streamResume => exact .inl (answers_streamResume h)
  | irqMask m => exact .inl (answers_irqMask h m)
  | profileArm b =>
    cases hb : slotNumber b with
    | none => exact .inl ⟨_, by rw [exec_profileArm b h, hb], .same ..⟩
    | some k => exact .inr ⟨b, k, rfl, slotNumber_eq_some.mp hb, by rw [exec_profileArm b h, hb]⟩
  | profileWrite => exact .inl (answers_profileWrite h)
  | profileRetire => exact .inl (answers_profileRetire h)
  | profileLoad b => exact .inl (answers_profileLoad h b)
  | powerOn _ | resetPin _ | slotExamination | applyGlobalSettings | softResetPhase2End | softResetPhase3End
  | closeDrainComplete | flushComplete | programmingEnd _ | hostRequestAccept _ | beatDecode | laneArrival
  | hostAnswerTransfer | entryDue _ | arbiterGrant | memoryAnswer _ | accessTimeout | pixelSent | endSent | panelAccept
  | panelRefuse | answerTimeout | sync | abortMessageSent => cases hc

end

end Sys2Proof.Machine
end


section
/-!
PROOF. The commands that are no frames as moves, and what a command and a step reach.
-/

namespace Sys2Proof.Machine

variable {s t u : State}

/-! ### The profile store -/

theorem acts_rejectSlot (s : State) (n : Fin 4) : Acts s (s.rejectSlot n) := by
  unfold State.rejectSlot
  split
  · exact .of_mark (.reject ‹_›) (moves_post _ _)
  · exact .of_moves .refl

@[simp] theorem State.rejectSlot_load (s : State) (n : Fin 4) : (s.rejectSlot n).store.load = s.store.load := by
  unfold State.rejectSlot
  split <;> rfl

theorem moves_endProfileLoad {n : Fin 4} {st : LoadStage} (h : s.store.load = some ⟨.profileLoad n, st⟩) (r : Result) :
    Moves s (s.endProfileLoad r) :=
  (moves_post s (.opDone 0x63 r)).tail (.operation (.loadFails h))

theorem acts_examined {k : LoadKind} {n : Fin 4} (h : s.store.load = some ⟨k, .examining n⟩) : Acts s (s.examined k n) := by
  have h' : (s.rejectSlot n).store.load = some ⟨k, .examining n⟩ := (s.rejectSlot_load n).trans h
  unfold State.examined
  split
  · exact .of_moves (.single (.operation (.loadMoves _ h)))
  · cases k with
    | startUp | softReset => exact (acts_rejectSlot s n).trans_moves (.single (.operation (.loadMoves _ h')))
    | profileLoad m => exact (acts_rejectSlot s n).trans_moves (moves_endProfileLoad h' _)

/-- The end of a programming changes the store, empties the slot and posts OP_DONE (R200). -/
theorem State.endProgramming_eq (s : State) (w : Programming) (failed : List (Nat × Byte)) :
    ∃ r, s.endProgramming w failed
      = State.post { s with mgmt := { s.mgmt with slot := none }, store := (s.endProgramming w failed).store } (.opDone 0x61 r) := by
  unfold State.endProgramming
  simp only
  split
  · split
    · exact ⟨.done, rfl⟩
    · exact ⟨.fault, rfl⟩
  · exact ⟨.fault, rfl⟩

theorem acts_endProgramming {w : Programming} (h : s.store.programming = some w) (failed : List (Nat × Byte)) :
    Acts s (s.endProgramming w failed) := by
  obtain ⟨r, hr⟩ := s.endProgramming_eq w failed
  rw [hr]
  exact .of_mark (.writeEnds failed h rfl) (moves_post _ _)

/-! ### The host port -/

theorem recordOf_length (r : HostRequest) : 1 ≤ (recordOf r).length ∧ (recordOf r).length ≤ 16 := by
  cases r with
  | read a hlen | write a hlen _ => have := hlen.isLt; simp only [recordOf]; omega

theorem recordOf_aligned (r : HostRequest) : (recordOf r).address % 4 = 0 := by
  cases r <;> exact Nat.mul_mod_left ..

theorem recordOf_outcomes (r : HostRequest) : (recordOf r).outcomes = [] ∧ (recordOf r).refusal = none := by
  cases r <;> exact ⟨rfl, rfl⟩

/-- A request that is not refused whole ends at or below FFFFFFFCh and meets no REFUSING port (R144, R145). -/
theorem State.wholeRefusal_none {r : HostRecord} (h : s.wholeRefusal r = none) :
    r.address + 4 * (r.length - 1) ≤ 0xFFFFFFFC ∧ s.host.state ≠ .refusing := by
  unfold State.wholeRefusal at h
  split at h
  · cases h
  · split at h
    · cases h
    · exact ⟨by omega, ‹_›⟩

theorem State.wholeRefusal_some {r : HostRecord} {w : RefuseReason} (h : s.wholeRefusal r = some w) :
    w = .wrap ∨ r.address + 4 * (r.length - 1) ≤ 0xFFFFFFFC := by
  unfold State.wholeRefusal at h
  split at h
  · exact .inl (Option.some.inj h).symm
  · exact .inr (by omega)

theorem moves_hostRequestAccept (r : HostRequest) (s : State) : ∃ t, execHostRequestAccept r s = .next t ∧ Moves s t := by
  refine ⟨_, rfl, ?_⟩
  obtain ⟨h1, h16⟩ := recordOf_length r
  obtain ⟨ho, hr⟩ := recordOf_outcomes r
  split
  · exact .refl
  · rename_i hacc
    have hroom : s.host.requests.length < 8 := by
      simp only [State.haccept, Bool.or_eq_true, Bool.not_eq_true, not_or] at hacc
      simp_all
    simp only
    split
    · rename_i hw
      obtain ⟨hlast, hport⟩ := State.wholeRefusal_none hw
      refine .single (.host (.enqueue hroom ⟨h1, h16, ?_, recordOf_aligned r, .inr hlast, ?_⟩ fun h => absurd h hport))
      · simp [ho]
      · simp [hr]
    · rename_i w hw
      have hdone : HostRecord.done
          { recordOf r with refusal := some w, outcomes := refusedOutcomes (recordOf r).length } = true := by
        simp [HostRecord.done, refusedOutcomes]
      have hsound : HostRecord.sound
          { recordOf r with refusal := some w, outcomes := refusedOutcomes (recordOf r).length } :=
        ⟨h1, h16, by simp [refusedOutcomes], recordOf_aligned r, (State.wholeRefusal_some hw).imp (congrArg some) id,
          fun _ => hdone⟩
      exact .head (.host (.enqueue hroom hsound fun _ => hdone)) (moves_post _ _)

theorem moves_beatDecode (s : State) : ∃ t, execBeatDecode s = .next t ∧ Moves s t := by
  refine ⟨_, rfl, ?_⟩
  split
  · exact .refl
  · rename_i h
    simp only [not_or, Bool.not_eq_true, Option.isSome_eq_false_iff, Option.isNone_iff_eq_none] at h
    split
    · exact .refl
    · refine .trans ?_ (moves_settle _ _)
      rw [State.decodeBeat_only]
      exact .single (.host (.decode h.1 h.2 ‹_›))

theorem moves_laneArrival (s : State) : ∃ t, execLaneArrival s = .next t ∧ Moves s t := by
  refine ⟨_, rfl, ?_⟩
  split
  · split
    · exact (moves_arrive ‹_› ‹_›).trans (moves_settle _ _)
    · exact .refl
  · exact .refl
  · exact .refl

theorem moves_hostAnswerTransfer (s : State) : ∃ t, execHostAnswerTransfer s = .next t ∧ Moves s t := by
  refine ⟨_, rfl, ?_⟩
  split
  · exact .refl
  · split
    · rename_i hr hd
      exact .single (.host (.answer _ hr (Bool.and_eq_true .. ▸ hd).1))
    · exact .refl

/-! ### The streamer and the link -/

/-- Something goes out on the link, and the region has got on with it. -/
theorem moves_progress {r r' : Region} (h : s.streamer.region = some r) (hw : r'.window = r.window) (hr : r'.rect = r.rect)
    (l : PanelLink) : Moves s { s with streamer := { s.streamer with region := some r' }, link := l } :=
  .head (.stream (.progress h hw hr)) (.single (.link l))

theorem moves_pixelSent (s : State) : ∃ t, execPixelSent s = .next t ∧ Moves s t := by
  refine ⟨_, rfl, ?_⟩
  split
  · exact .refl
  · split
    · exact .refl
    · rename_i r hr
      split
      · exact moves_progress (r := r) hr (by rfl) (by rfl) _
      · exact .refl
      · exact .refl

theorem moves_endSent (s : State) : ∃ t, execEndSent s = .next t ∧ Moves s t := by
  refine ⟨_, rfl, ?_⟩
  split
  · exact .refl
  · rename_i hs
    split
    · exact .refl
    · rename_i hr
      split
      · exact .head (.stream (.ended (not_not.mp hs) (by simp [hr]))) (.single (.link _))
      · exact .refl

theorem moves_startRegion (s : State) : Moves s s.startRegion := by
  unfold State.startRegion
  split
  · exact .refl
  · rename_i r hr
    simp only
    split
    · exact moves_progress (r := r) hr (by rfl) (by rfl) _
    · exact .refl

theorem moves_abortMessageSent (s : State) : ∃ t, execAbortMessageSent s = .next t ∧ Moves s t := by
  refine ⟨_, rfl, ?_⟩
  split
  · exact .refl
  · exact .head (.link _) (moves_startRegion _)

/-! ### Every command -/

theorem State.closeEnd?_some (h : s.closeEnd? = some t) : ∃ n, s.mgmt.slot = some (.closeWindow n)
    ∧ s.drainComplete n = true ∧ t = (s.setWindow n .unused).setSlot none := by
  unfold State.closeEnd? at h
  split at h
  · split at h
    · exact ⟨_, ‹_›, ‹_›, (Option.some.inj h).symm⟩
    · cases h
  all_goals cases h

theorem State.flushEnd?_some (h : s.flushEnd? = some t) : ∃ sel, s.mgmt.slot = some (.flush sel []) ∧ t = s.setSlot none := by
  unfold State.flushEnd? at h
  split at h
  · exact ⟨_, ‹_›, (Option.some.inj h).symm⟩
  all_goals cases h

theorem acts_of_moves {o : Host.Outcome State Fault Refusal} (h : ∃ t, o = .next t ∧ Moves s t) :
    ∃ t, o = .next t ∧ Acts s t := by
  obtain ⟨t, ht, hm⟩ := h
  exact ⟨t, ht, .of_moves hm⟩

/-- A command that is no frame, no power-on, no RESET pin and no application of settings, in its moves. -/
theorem exec_acts {c : Instr} (hc : c.isFrame = false) (hr : ∀ asel, c ≠ .powerOn asel ∧ c ≠ .resetPin asel)
    (hl : c ≠ .applyGlobalSettings) (s : State) : ∃ t, exec c s = .next t ∧ Acts s t := by
  cases c with
  | powerOn asel => exact absurd rfl (hr asel).1
  | resetPin asel => exact absurd rfl (hr asel).2
  | applyGlobalSettings => exact absurd rfl hl
  | slotExamination =>
    refine ⟨_, rfl, ?_⟩
    split
    · exact acts_examined ‹_›
    · exact .of_moves .refl
    · exact .of_moves .refl
  | softResetPhase2End =>
    refine ⟨_, rfl, .of_moves ?_⟩
    split
    · exact ((moves_endPhase2 s).trans (moves_endPhase3 _)).trans (moves_chooseDrain _)
    · exact .refl
  | softResetPhase3End => exact ⟨_, rfl, .of_moves (moves_endPhase3 s)⟩
  | closeDrainComplete =>
    refine ⟨_, rfl, .of_moves ?_⟩
    split
    · obtain ⟨n, hs, hd, rfl⟩ := State.closeEnd?_some ‹_›
      exact .head (.closeEnds hs hd) (moves_post _ _)
    · exact .refl
  | flushComplete =>
    refine ⟨_, rfl, .of_moves ?_⟩
    split
    · obtain ⟨sel, hs, rfl⟩ := State.flushEnd?_some ‹_›
      exact .head (.operation (.flushEnds hs)) (moves_post _ _)
    · exact .refl
  | programmingEnd failed =>
    refine ⟨_, rfl, ?_⟩
    split
    · exact .of_moves .refl
    · exact acts_endProgramming ‹_› failed
  | hostRequestAccept r => exact acts_of_moves (moves_hostRequestAccept r s)
  | beatDecode => exact acts_of_moves (moves_beatDecode s)
  | laneArrival => exact acts_of_moves (moves_laneArrival s)
  | hostAnswerTransfer => exact acts_of_moves (moves_hostAnswerTransfer s)
  | entryDue w =>
    refine ⟨_, rfl, .of_moves ?_⟩
    split
    · split
      · exact .head (.merge (.age _)) (moves_chooseDrain _)
      · exact .refl
    · exact .refl
  | arbiterGrant =>
    refine ⟨_, rfl, .of_moves ?_⟩
    split
    · exact .refl
    · rename_i h
      split
      · exact .refl
      · exact moves_grant ‹_› (by simp_all)
  | memoryAnswer md =>
    refine ⟨_, rfl, .of_moves ?_⟩
    split
    · exact .refl
    · exact (moves_freePort s).trans (moves_answered _ _ _)
  | accessTimeout =>
    refine ⟨_, rfl, .of_moves ?_⟩
    split
    · exact .refl
    · exact (moves_freePort s).trans (moves_failed _ _)
  | pixelSent => exact acts_of_moves (moves_pixelSent s)
  | endSent => exact acts_of_moves (moves_endSent s)
  | panelAccept =>
    refine ⟨_, rfl, .of_moves ?_⟩
    split
    · exact .single (.stream (.accept ‹_›))
    · exact .refl
  | panelRefuse =>
    refine ⟨_, rfl, .of_moves ?_⟩
    split
    · exact moves_answerFailure ‹_› _
    · exact .refl
  | answerTimeout =>
    refine ⟨_, rfl, .of_moves ?_⟩
    split
    · exact moves_answerFailure ‹_› _
    · exact .refl
  | sync =>
    refine ⟨_, rfl, .of_moves ?_⟩
    split
    · exact .single (.stream (.sync ‹_›))
    · exact .refl
  | abortMessageSent => exact acts_of_moves (moves_abortMessageSent s)
  | setKey _ k | setClip _ k | irqMask k => cases k <;> cases hc
  | brokenFrame | unknownCommandFrame | status | ident | softReset | stageWindow _ | openWindow _ | closeWindow _
  | queryWindow _ | setScroll _ _ | setAccess _ _ | flush _ | queueConfig _ _ | damageRead | damageAdd _ _
  | damageClear _ | streamMode _ | streamConfig _ _ _ | streamResume | eventsRead | profileArm _ | profileWrite
  | profileRetire | profileLoad _ => cases hc

/-- While the start-up load runs no frame changes anything (R180). -/
theorem exec_frame_startingUp {c : Instr} (hc : c.isFrame = true) (h : s.startingUp = true) : exec c s = .next s := by
  cases c with
  | powerOn _ | resetPin _ | slotExamination | applyGlobalSettings | softResetPhase2End | softResetPhase3End
  | closeDrainComplete | flushComplete | programmingEnd _ | hostRequestAccept _ | beatDecode | laneArrival
  | hostAnswerTransfer | entryDue _ | arbiterGrant | memoryAnswer _ | accessTimeout | pixelSent | endSent | panelAccept
  | panelRefuse | answerTimeout | sync | abortMessageSent => cases hc
  | _ => exact congrArg Host.Outcome.next (State.takeFrame_startingUp h _)

/-- What a command can reach: the end of what it does, a reply to a frame after it, an arm, the end of a load that applied its
settings, or the reset values. -/
inductive Reaches (s : State) : State → Prop
  | acts {t : State} : Acts s t → Reaches s t
  | replied {u : State} (d : List Byte) : Acts s u → Reaches s (u.reply d)
  | armed (k : Fin 4) : Reaches s { s with mgmt := { s.mgmt with response := [0x00], arm := some k } }
  | loaded {kind : LoadKind} {image : Option (Fin 4)} : s.store.load = some ⟨kind, .applying image⟩ →
      s.port.access = none → Reaches s ((s.loadImage image).endLoad kind image)
  | restarted (asel : Bool) : Reaches s (s.restart asel)

theorem applyGlobalSettings_reaches (s : State) : ∃ t, exec .applyGlobalSettings s = .next t ∧ Reaches s t := by
  refine ⟨_, rfl, ?_⟩
  split
  · split
    · exact .acts (.of_moves .refl)
    · exact .loaded ‹_› (Option.not_isSome_iff_eq_none.mp ‹_›)
  · exact .acts (.of_moves .refl)
  · exact .acts (.of_moves .refl)

/-- Every command answers a next state, and one that it reaches in this sense. -/
theorem exec_reaches (c : Instr) (s : State) : ∃ t, exec c s = .next t ∧ Reaches s t := by
  by_cases hc : c.isFrame = true
  · cases h : s.startingUp with
    | true => exact ⟨s, exec_frame_startingUp hc h, .acts (.of_moves .refl)⟩
    | false =>
      rcases frame_replies h hc with ⟨t, ht, u, d, hu, rfl⟩ | ⟨_, k, _, _, ht⟩
      · exact ⟨_, ht, .replied d hu⟩
      · exact ⟨_, ht, .armed k⟩
  · by_cases hr : ∃ asel, c = .powerOn asel ∨ c = .resetPin asel
    · obtain ⟨asel, rfl | rfl⟩ := hr <;> exact ⟨_, rfl, .restarted asel⟩
    · by_cases hl : c = .applyGlobalSettings
      · exact hl ▸ applyGlobalSettings_reaches s
      · obtain ⟨t, ht, hm⟩ := exec_acts (by simpa using hc) (by grind) hl s
        exact ⟨t, ht, .acts hm⟩

/-- What a step reaches, over the state with the queue's rest. -/
theorem step_reaches (h : step s = .next t) : Reaches { s with pending := s.pending.tail } t := by
  unfold step at h
  cases hp : s.pending with
  | nil =>
    rw [hp] at h
    obtain rfl := Host.Outcome.next.inj h
    have : { s with pending := ([] : List Instr).tail } = s := by rw [List.tail_nil, ← hp]
    exact this.symm ▸ .acts (.of_moves (moves_tick s))
  | cons c rest =>
    rw [hp] at h
    obtain ⟨t', ht, hr⟩ := exec_reaches c { s with pending := rest }
    obtain rfl := Host.Outcome.next.inj (ht.symm.trans h)
    exact hr

end Sys2Proof.Machine
end


section
/-!
PROOF. How a predicate that every move keeps is kept by a command and a step, with the load's end (R205, R206) taken apart.
-/

namespace Sys2Proof.Machine

variable {s t u : State}

/-! ### The settings of a load (R18, R205) -/

theorem Settings.factory_allowed : Settings.factory.allowed := by
  unfold Settings.allowed
  decide

/-- Settings read from an image are in the ranges of R18. -/
theorem parseSettings_allowed {bs : List Byte} {g : Settings} (h : parseSettings bs = some g) : g.allowed := by
  unfold parseSettings at h
  cases h1 : MemSize.ofCode (byteAt bs 0) with
  | none => simp [h1] at h
  | some m =>
    cases h2 : StreamMode.ofCode (byteAt bs 4) with
    | none => simp [h1, h2] at h
    | some sm =>
      cases h3 : PanelFormat.ofCode (byteAt bs 5) with
      | none => simp [h1, h2, h3] at h
      | some pf =>
        have b3 : byteAt bs 3 < 256 := BitVec.isLt _
        have b6 : byteAt bs 6 < 256 := BitVec.isLt _
        simp only [h1, h2, h3, Option.bind_eq_bind, Option.bind_some, Option.ite_none_right_eq_some, Bool.and_eq_true,
          decide_eq_true_eq, Option.some.injEq] at h
        obtain ⟨h, rfl⟩ := h
        simp only [Settings.allowed]
        omega

theorem moves_applySettings {g : Settings} {l : Load} (h : s.store.load = some l) (ha : s.port.access = none)
    (hg : g.allowed) (o : Option (Fin 4)) : Moves s (s.applySettings g o) :=
  .head (.settings (k := l.kind) (st := l.stage) o h ha hg) ((moves_chooseDrain _).tail (.stream .idle))

/-- The settings, the drain choice and a record taken leave the store, the host port and the slot alone. -/
theorem State.applySettings_frame (s : State) (g : Settings) (o : Option (Fin 4)) :
    (s.applySettings g o).store = s.store ∧ (s.applySettings g o).host = s.host
      ∧ (s.applySettings g o).mgmt = { s.mgmt with loadOutcome := o } ∧ (s.applySettings g o).pending = s.pending := by
  have h := State.takeIfIdle_only (s.withSettings g o).chooseDrain
  have h' := (s.withSettings g o).chooseDrain_merge
  show (s.withSettings g o).chooseDrain.takeIfIdle.store = _ ∧ (s.withSettings g o).chooseDrain.takeIfIdle.host = _
    ∧ (s.withSettings g o).chooseDrain.takeIfIdle.mgmt = _ ∧ (s.withSettings g o).chooseDrain.takeIfIdle.pending = _
  rw [h, h']
  exact ⟨rfl, rfl, rfl, rfl⟩

/-! ### The windows of a load (R206) -/

/-- One descriptor of an image opens its window or posts an event (R27). -/
def OpenStep (s t : State) : Prop :=
  (∃ e, t = s.post e) ∨ ∃ n v d, openChecks s.table s.port.memSize d = .ok v ∧ t = s.setWindow n (.active v)

abbrev Opens : State → State → Prop := Relation.ReflTransGen OpenStep

theorem opens_openFromImage (slot : Fin 4) (image : List Byte) (s : State) (n : Fin 8) :
    Opens s (openFromImage slot image s n) := by
  unfold openFromImage
  split
  · exact .refl
  · split
    · exact .single (.inr ⟨_, _, _, ‹_›, rfl⟩)
    · exact .single (.inl ⟨_, rfl⟩)

theorem opens_openWindows (s : State) (slot : Fin 4) (image : List Byte) : Opens s (s.openWindows slot image) := by
  unfold State.openWindows
  suffices ∀ (l : List (Fin 8)) (s : State), Opens s (l.foldl (openFromImage slot image) s) from this _ s
  intro l
  induction l with
  | nil => exact fun s => .refl
  | cons n l ih => exact fun s => (opens_openFromImage slot image s n).trans (ih _)

/-- Windows and events alone change. -/
theorem Opens.frame (h : Opens s t) :
    ∃ ws ev, t = { s with table := { s.table with windows := ws }, events := ev } := by
  induction h with
  | refl => exact ⟨_, _, rfl⟩
  | tail _ hs ih =>
    obtain ⟨ws, ev, rfl⟩ := ih
    rcases hs with ⟨e, rfl⟩ | ⟨n, v, d, _, rfl⟩
    · exact ⟨_, _, rfl⟩
    · exact ⟨_, _, rfl⟩

theorem Opens.keeps {P : State → Prop} (hp : ∀ s e, P s → P (s.post e))
    (ho : ∀ s n v d, openChecks s.table s.port.memSize d = .ok v → P s → P (s.setWindow n (.active v)))
    (h : Opens s t) (hs : P s) : P t := by
  induction h with
  | refl => exact hs
  | tail _ h ih =>
    rcases h with ⟨e, rfl⟩ | ⟨n, v, d, hd, rfl⟩
    · exact hp _ _ ih
    · exact ho _ _ _ _ hd ih

/-- A load that applies its settings: moves, openings of windows, and its end. -/
theorem loaded_cases {kind : LoadKind} {image : Option (Fin 4)} (h : s.store.load = some ⟨kind, .applying image⟩)
    (ha : s.port.access = none) : ∃ u w, Moves s u ∧ u.store = s.store ∧ u.host = s.host ∧ u.mgmt.slot = s.mgmt.slot
      ∧ u.mgmt.response = s.mgmt.response ∧ u.mgmt.asel = s.mgmt.asel ∧ u.pending = s.pending
      ∧ Opens u w ∧ (s.loadImage image).endLoad kind image = w.endLoad kind image := by
  cases image with
  | none =>
    obtain ⟨h1, h2, h3, h4⟩ := s.applySettings_frame Settings.factory none
    exact ⟨_, _, moves_applySettings h ha Settings.factory_allowed none, h1, h2, by rw [h3], by rw [h3], by rw [h3], h4, .refl,
      rfl⟩
  | some n =>
    have hg : ((parseSettings (slotImage s.store.otp n)).getD Settings.factory).allowed := by
      cases hp : parseSettings (slotImage s.store.otp n) with
      | none => exact Settings.factory_allowed
      | some g => exact parseSettings_allowed hp
    obtain ⟨h1, h2, h3, h4⟩ :=
      s.applySettings_frame ((parseSettings (slotImage s.store.otp n)).getD Settings.factory) (some n)
    exact ⟨_, _, moves_applySettings h ha hg (some n), h1, h2, by rw [h3], by rw [h3], by rw [h3], h4, opens_openWindows _ _ _,
      rfl⟩

/-- What the end of a load changes (R208 to R211). -/
theorem State.endLoad_eq (s : State) (kind : LoadKind) (image : Option (Fin 4)) : ∃ r ev, s.endLoad kind image = { s with
    host := { s.host with state := .accepting }
    store := { s.store with load := none }
    mgmt := { s.mgmt with response := r, slot := match kind with
      | .startUp => s.mgmt.slot
      | .softReset | .profileLoad _ => none }
    events := ev } := by
  cases kind with
  | startUp =>
    simp only [State.endLoad, State.post, State.answer, State.setPort, State.setLoad]
    exact ⟨_, _, rfl⟩
  | softReset | profileLoad n =>
    simp only [State.endLoad, State.endProfileLoad, State.endLongOp, State.post, State.setSlot, State.setPort, State.setLoad]
    exact ⟨_, _, rfl⟩

/-! ### What a command and a step keep -/

/-- A predicate that does not read the response buffer, the arm and the waiting commands, and that each move, each change of a
mark, each opening of a window, each end of a load and a reset keep, is kept by every step. -/
theorem step_keeps {P : State → Prop} (hm : ∀ s t, Move s t → P s → P t) (hk : ∀ s t, MarkMove s t → P s → P t)
    (hf : ∀ (s : State) r a, P s → P { s with mgmt := { s.mgmt with response := r, arm := a } })
    (ho : ∀ s n v d, openChecks s.table s.port.memSize d = .ok v → P s → P (s.setWindow n (.active v)))
    (he : ∀ s kind image, P s → P (s.endLoad kind image)) (hr : ∀ s asel, P s → P (s.restart asel))
    (hp : ∀ (s : State) l, P s → P { s with pending := l }) (h : step s = .next t) (hs : P s) : P t := by
  have hs' := hp s s.pending.tail hs
  cases step_reaches h with
  | acts hu => exact hu.keeps hk hm hs'
  | replied d hu => exact hf _ _ _ (hu.keeps hk hm hs')
  | armed k => exact hf _ _ _ hs'
  | restarted asel => exact hr _ asel hs'
  | loaded hl ha =>
    obtain ⟨u, w, hu, _, _, _, _, _, _, hw, heq⟩ := loaded_cases hl ha
    rw [heq]
    exact he _ _ _ (hw.keeps (fun s e => hm _ _ (.events (.post e))) ho (hu.keeps hm hs'))

end Sys2Proof.Machine
end


section
/-!
PROOF. The event queue stays in sequence over every step (R182 to R185).
-/

namespace Sys2Proof.Machine

variable {s t : State}

/-! ### Sequence numbers -/

/-- The counter's value joins the sequence (R183). -/
theorem sequenceSound_append {c : Byte} {l : List EventRecord} (h : sequenceSound c l = true) (e : Event) :
    sequenceSound (c + 1) (l ++ [⟨c, e, false⟩]) = true := by
  induction l with
  | nil => simp [sequenceSound]
  | cons r l ih =>
    cases l with
    | nil =>
      simpa [sequenceSound] using h
    | cons q l =>
      simp only [sequenceSound, Bool.and_eq_true] at h
      have ih := ih h.2
      simp only [List.cons_append, sequenceSound, Bool.and_eq_true] at ih ⊢
      exact ⟨h.1, ih⟩

/-- After a lost mark any number may follow (R185). -/
theorem sequenceSound_markLast {c : Byte} {l : List EventRecord} (h : sequenceSound c l = true) (c' : Byte) :
    sequenceSound c' (markLast l) = true := by
  induction l with
  | nil => rfl
  | cons r l ih =>
    cases l with
    | nil => simp [markLast, sequenceSound]
    | cons q l =>
      simp only [sequenceSound, Bool.and_eq_true] at h
      have ih := ih h.2
      cases l with
      | nil => simpa [markLast, sequenceSound] using h.1
      | cons p l =>
        simp only [markLast, sequenceSound, Bool.and_eq_true] at ih ⊢
        exact ⟨h.1, ih⟩

theorem sequenceSound_tail {c : Byte} {r : EventRecord} {l : List EventRecord} (h : sequenceSound c (r :: l) = true) :
    sequenceSound c l = true := by
  cases l with
  | nil => rfl
  | cons q l =>
    simp only [sequenceSound, Bool.and_eq_true] at h
    exact h.2

theorem sequenceSound_drop {c : Byte} {l : List EventRecord} (h : sequenceSound c l = true) (k : Nat) :
    sequenceSound c (l.drop k) = true := by
  induction k generalizing l with
  | zero => exact h
  | succ k ih =>
    cases l with
    | nil => rfl
    | cons r l => exact ih (sequenceSound_tail h)

/-! ### The queue -/

/-- The queue holds at most 16 records in sequence (R182, R185). -/
def EventQueue.sound (q : EventQueue) : Prop := q.records.length ≤ 16 ∧ sequenceSound q.counter q.records = true

theorem EventQueue.post_sound {q : EventQueue} (h : q.sound) (e : Event) : (q.post e).sound := by
  obtain ⟨hl, hs⟩ := h
  unfold EventQueue.sound
  rw [EventQueue.post_counter]
  by_cases hr : q.records.length < 16
  · rw [EventQueue.post_room hr]
    exact ⟨by simpa using hr, sequenceSound_append hs e⟩
  · rw [EventQueue.post_full (by omega)]
    exact ⟨by simpa using hl, sequenceSound_markLast hs _⟩

theorem EventMove.sound {q q' : EventQueue} (h : EventMove q q') (hq : q.sound) : q'.sound := by
  cases h with
  | post e => exact EventQueue.post_sound hq e
  | read => exact ⟨by
      have := hq.1
      simp only [List.length_drop]
      omega, sequenceSound_drop hq.2 _⟩
  | mask m => exact hq

theorem Move.keeps_events (h : Move s t) (hs : s.events.sound) : t.events.sound := by
  cases h with
  | events h => exact h.sound hs
  | stream h => rw [h.frame.1]; exact hs
  | operation h => rw [h.frame]; exact hs
  | phase3Ends _ _ =>
    unfold State.phases4to7
    split <;> exact ⟨Nat.zero_le _, rfl⟩
  | _ => exact hs

/-- Settles O54. Every event arises through `post`; EVENTS_READ takes records from the front, and phase 5 of a SOFT_RESET all of
them. -/
theorem eventQueueStaysSound : Obligations.EventQueueStaysSound := fun s t hs h =>
  step_keeps (P := fun s => s.events.sound) (fun _ _ => Move.keeps_events) (fun _ _ h hs => by rw [h.frame]; exact hs)
    (fun _ _ _ h => h) (fun _ _ _ _ _ h => h)
    (fun u kind image hu => by
      cases kind with
      | startUp => exact EventQueue.post_sound hu _
      | softReset | profileLoad n => exact EventQueue.post_sound (EventQueue.post_sound hu _) _)
    (fun _ _ _ => ⟨Nat.zero_le _, rfl⟩) (fun _ _ h => h) h hs

end Sys2Proof.Machine
end


section
/-!
PROOF. Windows in use stay in range and apart over every step (R19, R25, R32), and what the open checks give is sound.
-/

namespace Sys2Proof.Machine

variable {s t : State}

theorem MemSize.bytes_le (m : MemSize) : m.bytes ≤ 16777216 := by cases m <;> decide

theorem WindowValues.apart_comm (v w : WindowValues) : v.apart w = w.apart v := Bool.or_comm ..

/-! ### The open checks (R22 to R25) -/

/-- The range check gives the values of the descriptor's fields, in range, with the host span of R20. -/
theorem Descriptor.rangeCheck_some {d : Descriptor} {v : WindowValues} (h : d.rangeCheck = some v) :
    d.values? = some v ∧ v.inRange = true ∧ v.hostSpan = hostSpanOf v.width v.height v.hostFormat := by
  unfold Descriptor.rangeCheck at h
  split at h
  · cases h
  · cases hv : d.values? with
    | none => simp [hv] at h
    | some u =>
      simp only [hv, Option.ite_none_right_eq_some, Option.some.injEq] at h
      obtain ⟨hr, rfl⟩ := h
      refine ⟨rfl, hr, ?_⟩
      simp only [Descriptor.values?, Option.bind_eq_bind, Option.bind_eq_some_iff, Option.pure_def, Option.some.injEq] at hv
      obtain ⟨_, _, _, _, _, _, rfl⟩ := hv
      rfl

/-- The three checks passed. -/
theorem openChecks_ok {b : Table} {m : MemSize} {d : List Byte} {v : WindowValues} :
    openChecks b m d = .ok v ↔
      (parseDescriptor d).rangeCheck = some v ∧ v.fitsMemory m = true ∧ b.hostRangeFree v = true := by
  unfold openChecks
  cases (parseDescriptor d).rangeCheck with
  | none => simp
  | some u =>
    cases hf : u.fitsMemory m with
    | false =>
      simp only [hf, Bool.not_false, if_true, Option.some.injEq, false_iff, reduceCtorEq]
      rintro ⟨rfl, h, _⟩
      exact absurd (hf.symm.trans h) (by decide)
    | true =>
      cases hh : b.hostRangeFree u with
      | false =>
        simp only [hf, hh, Bool.not_true, Bool.not_false, if_true, Option.some.injEq, false_iff, reduceCtorEq, if_false,
          Bool.false_eq_true]
        rintro ⟨rfl, _, h⟩
        exact absurd (hh.symm.trans h) (by decide)
      | true =>
        simp only [hf, hh, Bool.not_true, Bool.false_eq_true, if_false, Except.ok.injEq, Option.some.injEq]
        exact ⟨fun h => ⟨h, h ▸ hf, h ▸ hh⟩, fun h => h.1⟩

/-- A host range that is free ends within the address space and is apart from that of every window in use (R25). -/
theorem hostRangeFree_iff {v : WindowValues} : s.table.hostRangeFree v = true ↔
    v.hostBase + v.hostSpan ≤ 4294967296 ∧ ∀ n, ∀ w ∈ (s.window n).values?, v.apart w = true := by
  simp only [Table.hostRangeFree, Bool.and_eq_true, decide_eq_true_eq, List.all_eq_true, State.window, and_congr_right_iff]
  intro _
  constructor
  · intro h n w hw
    have := h _ (Vector.mem_toList_iff.mpr (Vector.getElem_mem n.isLt))
    rw [Option.mem_def] at hw
    rw [show s.table.windows[n.val] = s.table.windows[n] from rfl, hw] at this
    exact this
  · intro h w hw
    obtain ⟨i, hi, rfl⟩ := Vector.getElem_of_mem (Vector.mem_toList_iff.mp hw)
    cases hv : (s.table.windows[i]).values? with
    | none => rfl
    | some u => exact h ⟨i, hi⟩ u hv

/-- What the open checks give is sound and apart from the windows in use. -/
theorem openChecks_sound {m : MemSize} {d : List Byte} {v : WindowValues} (h : openChecks s.table m d = .ok v) :
    v.sound ∧ ∀ n, ∀ w ∈ (s.window n).values?, v.apart w = true := by
  obtain ⟨hc, hf, hh⟩ := openChecks_ok.mp h
  obtain ⟨_, hr, hs⟩ := Descriptor.rangeCheck_some hc
  obtain ⟨he, ha⟩ := hostRangeFree_iff.mp hh
  simp only [WindowValues.fitsMemory, decide_eq_true_eq] at hf
  exact ⟨⟨hr, hs, he, hf.trans m.bytes_le⟩, ha⟩

/-! ### The table -/

/-- A window's record is replaced by one whose values are sound and apart from those of the other windows. -/
theorem TableSound.setWindow {n : Fin 8} {w : Window} (h : TableSound s) (hw : ∀ v ∈ w.values?, v.sound)
    (ha : ∀ v ∈ w.values?, ∀ m, m ≠ n → ∀ u ∈ (s.window m).values?, v.apart u = true) : TableSound (s.setWindow n w) := by
  obtain ⟨hsound, hapart, hstage⟩ := h
  refine ⟨fun m v hv => ?_, fun m k hmk v hv u hu => ?_, hstage⟩
  · rw [State.window_setWindow] at hv
    split at hv
    · exact hw v hv
    · exact hsound m v hv
  · rw [State.window_setWindow] at hv hu
    split at hv <;> split at hu
    · exact absurd (by rw [‹m = n›, ‹k = n›]) hmk
    · exact ha v hv k ‹_› u hu
    · rw [WindowValues.apart_comm]
      exact ha u hu m ‹_› v hv
    · exact hapart m k hmk v hv u hu

/-- The same geometry gives the same soundness. -/
theorem WindowValues.keeps.sound {v v' : WindowValues} (h : v.keeps v') (hv : v.sound) : v'.sound := by
  obtain ⟨hr, hs, he, hm⟩ := hv
  obtain ⟨heq, hk⟩ := h
  have hr' := hk hr
  rw [heq] at hr' ⊢
  exact ⟨hr', hs, he, hm⟩

theorem TableSound.opened {n : Fin 8} {v : WindowValues} {m : MemSize} {d : List Byte} (h : TableSound s)
    (ho : openChecks s.table m d = .ok v) : TableSound (s.setWindow n (.active v)) := by
  obtain ⟨hv, ha⟩ := openChecks_sound ho
  refine h.setWindow ?_ ?_
  · rintro _ ⟨⟩
    exact hv
  · rintro _ ⟨⟩ m _ u hu
    exact ha m u hu

theorem TableMove.sound {b : Table} (h : TableMove s b) (hs : TableSound s) : TableSound { s with table := b } := by
  cases h with
  | stage hd =>
    obtain ⟨hsound, hapart, _⟩ := hs
    refine ⟨hsound, hapart, ?_⟩
    rintro _ ⟨⟩
    exact hd
  | opens _ _ _ ho => exact hs.opened ho
  | @change n v v' hw hk =>
    have hv : v ∈ (s.window n).values? := by rw [hw]; rfl
    refine TableSound.setWindow (s := s) hs ?_ ?_
    · rintro _ ⟨⟩
      exact hk.sound (hs.1 n v hv)
    · rintro _ ⟨⟩ m hm u hu
      have := hs.2.1 n m (Ne.symm hm) v hv u hu
      rw [hk.1]
      exact this
  | @drain n v hw _ =>
    have hv : v ∈ (s.window n).values? := by rw [hw]; rfl
    refine TableSound.setWindow (s := s) hs ?_ ?_
    · rintro _ ⟨⟩
      exact hs.1 n v hv
    · rintro _ ⟨⟩ m hm u hu
      exact hs.2.1 n m (Ne.symm hm) v hv u hu

/-- A table without windows and staged descriptor is sound. -/
theorem TableSound.of_unused (hw : s.table = ⟨Vector.replicate 8 .unused, none⟩) : TableSound s := by
  have hn : ∀ n, (s.window n).values? = none := fun n => by
    simp only [State.window, hw]
    simp [Window.values?]
  refine ⟨fun n v hv => ?_, fun n m _ v hv => ?_, fun d hd => ?_⟩
  · rw [hn n] at hv; cases hv
  · rw [hn n] at hv; cases hv
  · rw [hw] at hd; cases hd

theorem Move.keeps_table (h : Move s t) (hs : TableSound s) : TableSound t := by
  cases h with
  | table h => exact h.sound hs
  | stream h => rw [h.frame.1]; exact hs
  | operation h => rw [h.frame]; exact hs
  | closeEnds _ _ => exact hs.setWindow (by rintro _ ⟨⟩) (by rintro _ ⟨⟩)
  | phase3Ends _ _ => exact .of_unused rfl
  | _ => exact hs

/-- Settles O55. OPEN_WINDOW and the openings of a load pass the checks of R23 to R25; every other change of a window in use
keeps its geometry. -/
theorem apertureTableStaysSound : Obligations.ApertureTableStaysSound := fun _ _ hs h =>
  step_keeps (P := TableSound) (fun _ _ => Move.keeps_table) (fun _ _ h hs => by rw [h.frame]; exact hs)
    (fun _ _ _ h => h) (fun _ _ _ _ ho h => h.opened ho)
    (fun u kind image hu => by
      obtain ⟨r, ev, heq⟩ := u.endLoad_eq kind image
      rw [heq]
      exact hu)
    (fun _ _ _ => .of_unused rfl) (fun _ _ h => h) h hs

end Sys2Proof.Machine
end


section
/-!
PROOF. The request queue, the stream wait count and the settings in force stay sound over every step, and over what happens
on the host bus (R18, R132, R142, R143).
-/

namespace Sys2Proof.Machine

variable {s t : State}

/-! ### The request queue -/

/-- A beat done leaves every record sound (R143, R146). -/
theorem HostRecord.sound.finish {r : HostRecord} (h : r.sound) (hd : r.done = false) (o : BeatOutcome) :
    HostRecord.sound { r with outcomes := r.outcomes ++ [o] } := by
  obtain ⟨h1, h16, ho, ha, hw, hr⟩ := h
  have hlt : r.outcomes.length < r.length := by simpa [HostRecord.done] using hd
  refine ⟨h1, h16, ?_, ha, hw, fun h => absurd ((hr h).symm.trans hd) (by decide)⟩
  simpa using hlt

/-- A beat done leaves an answer that is going out alone: its record is done. -/
theorem HostSound.finish (h : HostSound s) (o : BeatOutcome) : HostSound (s.finishBeat o) := by
  obtain ⟨hl, hr, _, hk, hi⟩ := h
  refine ⟨by simpa using hl, fun r hm => ?_, nofun, fun k hs => ?_, hi⟩
  · rcases mem_modifyFirst hm with hm | ⟨q, hq, hd, rfl⟩
    · exact hr r hm
    · exact (hr q hq).finish (by simpa using hd) o
  · have hk := hk k hs
    cases hq : s.host.requests with
    | nil => rw [hq] at hk; cases hk
    | cons r rest =>
      rw [hq] at hk
      simp only [List.head?_cons, Option.any_some, Bool.and_eq_true] at hk
      simp [hq, modifyFirst, hk.1, hk.2]

/-- A request taken leaves the oldest record and the head request as they were. -/
theorem HostSound.enqueue {r : HostRecord} (h : HostSound s) (hl : s.host.requests.length < 8) (hr : r.sound) :
    HostSound { s with host := { s.host with requests := s.host.requests ++ [r] } } := by
  obtain ⟨_, hrs, ha, hk, hi⟩ := h
  refine ⟨by simpa using hl, fun q hq => ?_, fun h => ?_, fun k hs => ?_, hi⟩
  · rcases List.mem_append.mp hq with hq | hq
    · exact hrs q hq
    · rw [List.mem_singleton.mp hq]
      exact hr
  · have := ha h
    simp only [HostPort.head?, List.find?_append] at this ⊢
    rw [Option.isSome_or, this, Bool.true_or]
  · have hk := hk k hs
    cases hq : s.host.requests with
    | nil => rw [hq] at hk; cases hk
    | cons q rest => rw [hq] at hk; exact hk

theorem HostMove.sound {p : HostPort} (h : HostMove s p) (hs : HostSound s) : HostSound { s with host := p } := by
  cases h with
  | finish o => exact hs.finish o
  | @decode r _ _ hr =>
    rcases s.decodeBeat_cases r with ⟨o, h⟩ | ⟨x, h, _⟩ <;> rw [h]
    · exact hs.finish o
    · obtain ⟨hl, hrs, _, hk, hi⟩ := hs
      exact ⟨hl, hrs, fun _ => (congrArg Option.isSome hr :), hk, hi⟩
  | join _ ha =>
    obtain ⟨hl, hrs, hh, hk, hi⟩ := hs
    exact ⟨hl, hrs, fun _ => hh (by rw [ha]; rfl), hk, hi⟩
  | enqueue hl hr _ => exact hs.enqueue hl hr
  | @answer r rest _ hq hd =>
    obtain ⟨hl, hrs, ha, _, hi⟩ := hs
    rw [hq] at hl hrs
    simp only [HostPort.head?, hq, List.find?_cons, hd, Bool.not_true] at ha
    simp only [List.length_cons] at hl
    exact ⟨by show rest.length ≤ 8; omega, fun q hm => hrs q (List.mem_cons_of_mem _ hm), ha, nofun, hi⟩

theorem Move.keeps_host (h : Move s t) (hs : HostSound s) : HostSound t := by
  cases h with
  | host h => exact h.sound hs
  | stream h => rw [h.frame.1]; exact hs
  | operation h => rw [h.frame]; exact hs
  | phase3Ends _ _ =>
    unfold State.phases4to7
    split <;> exact hs
  | _ => exact hs

theorem HostSound.step (h : step s = .next t) (hs : HostSound s) : HostSound t :=
  step_keeps (P := HostSound) (fun _ _ => Move.keeps_host) (fun _ _ h hs => by rw [h.frame]; exact hs)
    (fun _ _ _ h => h) (fun _ _ _ _ _ h => h)
    (fun u kind image hu => by
      obtain ⟨r, ev, heq⟩ := u.endLoad_eq kind image
      rw [heq]
      exact hu)
    (fun _ _ _ => by simp [State.restart, HostPort.atReset, HostSound]) (fun _ _ h => h) h hs

/-! ### The stream wait count (R132) -/

theorem Move.keeps_streamWait (h : Move s t) (hs : s.port.streamWait ≤ 8) : t.port.streamWait ≤ 8 := by
  cases h with
  | port h =>
    cases h with
    | grant _ _ _ hw | free hw => exact hw hs
    | tick => exact hs
  | stream h => exact (h.frame.2.2.2).trans hs
  | operation h => rw [h.frame]; exact hs
  | phase3Ends _ _ =>
    unfold State.phases4to7
    split
    · exact (s.abortRegion_frame.2.2.2).trans hs
    · exact hs
  | _ => exact hs

theorem streamWait_step (h : step s = .next t) (hs : s.port.streamWait ≤ 8) : t.port.streamWait ≤ 8 :=
  step_keeps (P := fun s => s.port.streamWait ≤ 8) (fun _ _ => Move.keeps_streamWait) (fun _ _ h hs => by rw [h.frame]; exact hs)
    (fun _ _ _ h => h)
    (fun _ _ _ _ _ h => h)
    (fun u kind image hu => by
      obtain ⟨r, ev, heq⟩ := u.endLoad_eq kind image
      rw [heq]
      exact hu)
    (fun _ _ _ => Nat.zero_le _) (fun _ _ h => h) h hs

/-! ### The settings (R18) -/

/-- The streamer's settings are in their ranges, and no more retries are used than can be set (R96, R107). -/
def Streamer.bounded (r : Streamer) : Prop :=
  (1 ≤ r.answerLimit ∧ r.answerLimit ≤ 255) ∧ r.retries ≤ 3 ∧ r.retriesUsed ≤ 3

/-- A fresh region has used no retry (R102). -/
theorem State.withTaken_bounded (h : s.streamer.bounded) (p : Record → Bool) (r : Record) :
    (s.withTaken p r).streamer.bounded := ⟨h.1, h.2.1, Nat.zero_le _⟩

theorem State.takeIfIdle_bounded (h : s.streamer.bounded) : s.takeIfIdle.streamer.bounded := by
  by_cases hs : s.streamer.state = .idle
  · cases hr : s.damage.records.find? Record.isPending with
    | none => rwa [State.takeIfIdle_same (.inr hr)]
    | some r => rw [State.takeIfIdle_taken hs hr]; exact State.withTaken_bounded h _ _
  · rwa [State.takeIfIdle_same (.inl hs)]

theorem State.continuePass_bounded (h : s.streamer.bounded) : s.continuePass.streamer.bounded := by
  cases hr : s.damage.records.find? Record.isMarked with
  | none => rw [State.continuePass_over hr]; exact h
  | some r => rw [State.continuePass_taken hr]; exact State.withTaken_bounded h _ _

theorem State.regionEnd_bounded (h : s.streamer.bounded) : s.regionEnd.streamer.bounded := by
  cases hm : s.streamer.mode with
  | off => rw [State.regionEnd_off hm]; exact h
  | free => rw [State.regionEnd_free hm]; exact State.takeIfIdle_bounded h
  | gated =>
    cases hp : s.streamer.passOpen with
    | false => rw [State.regionEnd_closed hm hp]; exact h
    | true => rw [State.regionEnd_open hm hp]; exact State.continuePass_bounded h

theorem State.startRegion_bounded (h : s.streamer.bounded) : s.startRegion.streamer.bounded := by
  unfold State.startRegion
  split
  · exact h
  · split <;> exact h

theorem StreamMove.bounded (h : StreamMove s t) (hs : s.streamer.bounded) : t.streamer.bounded := by
  cases h with
  | idle => exact State.takeIfIdle_bounded hs
  | insert _ _ _ => exact State.takeIfIdle_bounded hs
  | scroll _ _ | accept _ => exact State.regionEnd_bounded hs
  | close n =>
    unfold State.closeDamage
    split
    · exact State.regionEnd_bounded hs
    · exact hs
  | mode m =>
    cases m with
    | off =>
      simp only [State.setMode, State.abortToOff]
      split <;> exact hs
    | free =>
      by_cases h : s.streamer.state = .off ∨ s.streamer.state = .waitSync
      · rw [State.setMode_free_takes h]; exact State.takeIfIdle_bounded hs
      · rw [State.setMode_free_stays h]; exact hs
    | gated =>
      by_cases h : s.streamer.state = .off ∨ s.streamer.state = .idle
      · rw [State.setMode_gated_waits h]; exact hs
      · rw [State.setMode_gated_stays h]; exact hs
  | config f _ h1 h255 h3 => exact ⟨⟨h1, h255⟩, h3, hs.2.2⟩
  | resume _ =>
    unfold State.resume
    split
    · exact State.takeIfIdle_bounded hs
    all_goals exact hs
  | resend _ _ hu =>
    refine State.startRegion_bounded ⟨hs.1, hs.2.1, ?_⟩
    have := hs.2.1
    show s.streamer.retriesUsed + 1 ≤ 3
    omega
  | sync _ => exact State.continuePass_bounded hs
  | replace _ _ _ | clear n | progress _ _ _ | ended _ _ | stall _ | fail _ | tick => exact hs

/-- Of the port, an abort keeps the settings and the limit of the access in flight. -/
theorem MemoryPort.abortedTo.limits {p p' : MemoryPort} (h : p.abortedTo p')
    (ha : ∀ a ∈ p.access, 1 ≤ a.limit ∧ a.limit ≤ 64) : p'.waitLimit = p.waitLimit ∧ ∀ a ∈ p'.access, 1 ≤ a.limit ∧ a.limit ≤ 64 := by
  obtain ⟨he, hacc, _⟩ := h
  refine ⟨by rw [he], ?_⟩
  rcases hacc with hacc | hacc <;> rw [hacc]
  · exact ha
  · intro a hm
    obtain ⟨b, hb, rfl⟩ := Option.map_eq_some_iff.mp hm
    unfold Access.abandonStream
    split <;> exact ha b hb

/-- A lane set taken leaves the settings of the queue alone (R51). -/
theorem MergeQueue.takeSet_settings (q : MergeQueue) (c : Creator) (mark granted : Bool) (lanes : List LaneWrite) :
    (q.takeSet c mark granted lanes).highWater = q.highWater ∧ (q.takeSet c mark granted lanes).linger = q.linger := by
  unfold MergeQueue.takeSet
  generalize beatWords lanes = ws
  induction ws generalizing q with
  | nil => exact ⟨rfl, rfl⟩
  | cons a ws ih =>
    have h := ih (q.takeWord c mark granted lanes a)
    rw [List.foldl_cons, h.1, h.2]
    unfold MergeQueue.takeWord
    split <;> exact ⟨rfl, rfl⟩

theorem MergeMove.settings {q : MergeQueue} (h : MergeMove s q) :
    (q.highWater = s.merge.highWater ∧ q.linger = s.merge.linger) ∨ ((1 ≤ q.highWater ∧ q.highWater ≤ 16) ∧ q.linger ≤ 255) := by
  cases h with
  | choose => rw [State.chooseDrain_only]; exact .inl ⟨rfl, rfl⟩
  | take _ _ _ _ => exact .inl (MergeQueue.takeSet_settings ..)
  | config h1 h16 h255 => exact .inr ⟨⟨h1, h16⟩, h255⟩
  | _ => exact .inl ⟨rfl, rfl⟩

theorem Move.keeps_settings (h : Move s t) (hs : SettingsSound s) : SettingsSound t := by
  obtain ⟨hw, ha, hh, hl, hb⟩ := hs
  have hb : s.streamer.bounded := hb
  cases h with
  | merge h =>
    rcases h.settings with ⟨h1, h2⟩ | ⟨h1, h2⟩
    · exact ⟨hw, ha, by show _ ∧ _; rw [h1]; exact hh, by show _ ≤ _; rw [h2]; exact hl, hb⟩
    · exact ⟨hw, ha, h1, h2, hb⟩
  | port h =>
    cases h with
    | grant _ _ hlim _ => exact ⟨hw, by rintro _ ⟨⟩; rw [hlim]; exact hw, hh, hl, hb⟩
    | free _ => exact ⟨hw, by rintro _ ⟨⟩, hh, hl, hb⟩
    | tick =>
      refine ⟨hw, fun a hm => ?_, hh, hl, hb⟩
      obtain ⟨b, hb, rfl⟩ := Option.map_eq_some_iff.mp hm
      exact ha b hb
  | stream h =>
    obtain ⟨h1, h2⟩ := h.frame.2.limits ha
    have hm : t.merge = s.merge := by rw [h.frame.1]
    exact ⟨by rw [h1]; exact hw, h2, by rw [hm]; exact hh, by rw [hm]; exact hl, h.bounded hb⟩
  | operation h => rw [h.frame]; exact ⟨hw, ha, hh, hl, hb⟩
  | phase3Ends _ _ =>
    unfold State.phases4to7
    split
    · exact ⟨hw, (s.abortRegion_frame.2.limits ha).2, hh, hl, hb⟩
    · exact ⟨hw, ha, hh, hl, hb⟩
  | settings o _ hacc hg =>
    obtain ⟨h1, h2, h3, h4, h5⟩ := hg
    exact ⟨h1, ha, h2, h3, h4, h5, hb.2.2⟩
  | _ => exact ⟨hw, ha, hh, hl, hb⟩

theorem SettingsSound.step (h : step s = .next t) (hs : SettingsSound s) : SettingsSound t :=
  step_keeps (P := SettingsSound) (fun _ _ => Move.keeps_settings) (fun _ _ h hs => by rw [h.frame]; exact hs)
    (fun _ _ _ h => h) (fun _ _ _ _ _ h => h)
    (fun u kind image hu => by
      obtain ⟨r, ev, heq⟩ := u.endLoad_eq kind image
      rw [heq]
      exact hu)
    (fun _ _ _ => by
      obtain ⟨h1, h2, h3, h4, h5⟩ := Settings.factory_allowed
      exact ⟨h1, nofun, h2, h3, h4, h5, Nat.zero_le _⟩)
    (fun _ _ h => h) h hs

/-! ### The host bus (R142, R147) -/

/-- A request accepted and an answer sent keep the request queue sound. -/
theorem HostSound.of_moves (h : Moves s t) (hs : HostSound s) : HostSound t := h.keeps (fun _ _ => Move.keeps_host) hs

theorem HostSound.accept {r : HostRequest} (h : exec (.hostRequestAccept r) s = .next t) (hs : HostSound s) : HostSound t := by
  obtain ⟨u, hu, hm⟩ := moves_hostRequestAccept r s
  cases hu.symm.trans h
  exact hs.of_moves hm

theorem HostSound.setIncoming {i : Option Incoming} (hs : HostSound s) (hi : ∀ j ∈ i, j.beats.length ≤ j.hlen.toNat) :
    HostSound (s.setIncoming i) := by
  obtain ⟨hl, hr, ha, hk, _⟩ := hs
  exact ⟨hl, hr, ha, hk, hi⟩

theorem HostSound.takeAddress {write : Bool} {a : Word} {hlen : BitVec 4} (h : s.takeAddress write a hlen = .next t)
    (hs : HostSound s) : HostSound t := by
  unfold State.takeAddress at h
  split at h
  · cases h; exact hs
  · split at h
    · cases h
      exact hs.setIncoming (by rintro _ ⟨⟩; exact Nat.zero_le _)
    · exact hs.accept h

theorem HostSound.takeBeat {i : Incoming} {b : WriteBeat} (h : s.takeBeat i b = .next t) (hs : HostSound s) :
    HostSound t := by
  unfold State.takeBeat at h
  split at h
  · cases h; exact hs
  · split at h
    · rename_i hlt
      cases h
      refine hs.setIncoming ?_
      rintro _ ⟨⟩
      simpa using hlt
    · exact HostSound.accept h (hs.setIncoming (by rintro _ ⟨⟩))

/-- An answer starts only when it is due, and an answer has a beat. -/
theorem HostSound.beginAnswer (hs : HostSound s) (hvalid : Bool) : HostSound (s.beginAnswer hvalid) := by
  unfold State.beginAnswer
  split
  · rename_i hdue
    obtain ⟨hl, hr, ha, _, hi⟩ := hs
    simp only [Bool.and_eq_true, HostPort.answerDue] at hdue
    refine ⟨hl, hr, ha, ?_, hi⟩
    rintro _ ⟨⟩
    obtain ⟨⟨_, hdone⟩, _⟩ := hdue
    show s.host.requests.head?.any _ = true
    cases hq : s.host.requests with
    | nil => rw [hq] at hdone; cases hdone
    | cons r rest =>
      rw [hq] at hdone
      have hd : r.done = true := hdone
      obtain ⟨h1, _⟩ := hr r (by rw [hq]; exact List.mem_cons_self)
      have ho : r.length ≤ r.outcomes.length := by simpa [HostRecord.done] using hd
      have hpos : 0 < r.answer.length := by
        unfold HostRecord.answer
        cases r.kind with
        | read => simp only [List.length_map]; omega
        | write => exact Nat.one_pos
      simp [hd, hpos]
  · exact hs

theorem HostSound.busStep {e : HostBusEvent} (h : hostBusStep e s = .next t) (hs : HostSound s) : HostSound t := by
  cases e with
  | request write a hlen => exact hs.takeAddress h
  | beat b =>
    simp only [hostBusStep] at h
    split at h
    · exact hs.takeBeat h
    · cases h; exact hs
  | answerBegins hvalid =>
    cases h
    exact hs.beginAnswer hvalid
  | answerBeat =>
    simp only [hostBusStep] at h
    cases hk : s.host.sending with
    | none => simp only [hk] at h; cases h; exact hs
    | some k =>
      simp only [hk] at h
      split at h
      · rename_i hlt
        cases h
        obtain ⟨hl, hr, ha, hsend, hi⟩ := hs
        refine ⟨hl, hr, ha, ?_, hi⟩
        rintro _ ⟨⟩
        have := hsend k hk
        show s.host.requests.head?.any _ = true
        cases hq : s.host.requests with
        | nil => rw [hq] at this; cases this
        | cons r rest =>
          rw [hq] at this hlt
          simp only [List.head?_cons, Option.any_some, Bool.and_eq_true] at this
          simp only [List.head?_cons, Option.map_some, Option.getD_some] at hlt
          simp [this.1, hlt]
      · obtain ⟨u, hu, hm⟩ := moves_hostAnswerTransfer s
        cases hu.symm.trans h
        exact hs.of_moves hm

/-- Settles O56. -/
theorem portsStaySound : Obligations.PortsStaySound :=
  ⟨fun _ _ h => ⟨HostSound.step h, streamWait_step h, SettingsSound.step h⟩, fun _ _ _ h hs => hs.busStep h⟩

end Sys2Proof.Machine
end


section
/-!
PROOF. The long-operation slot, the host port's state, the write in flight and the load stay in agreement (R145, R163, R169).
-/

namespace Sys2Proof.Machine

variable {s t : State}

/-! ### The occupant when a word leaves a wait set -/

@[simp] theorem LongOp.dropWord_writeSlot (o : LongOp) (a : Nat) : (o.dropWord a).writeSlot? = o.writeSlot? := by
  cases o <;> rfl

@[simp] theorem LongOp.dropWord_isSoftReset (o : LongOp) (a : Nat) : (o.dropWord a).isSoftReset = o.isSoftReset := by
  cases o <;> rfl

@[simp] theorem LongOp.dropWord_isLoad (o : LongOp) (a : Nat) : (o.dropWord a).isLoad = o.isLoad := by
  cases o with
  | softReset p => cases p <;> rfl
  | _ => rfl

/-- An occupant that is no FLUSH is left as it is. -/
theorem LongOp.dropWord_eq {o p : LongOp} {a : Nat} (hp : ∀ sel ws, p ≠ .flush sel ws) : o.dropWord a = p ↔ o = p := by
  cases o with
  | flush sel ws =>
    simp only [LongOp.dropWord]
    exact ⟨fun h => absurd h.symm (hp _ _), fun h => absurd h.symm (hp _ _)⟩
  | _ => rfl

theorem dropWord_slot {o : Option LongOp} {p : LongOp} {a : Nat} (hp : ∀ sel ws, p ≠ .flush sel ws) :
    o.map (fun o => o.dropWord a) = some p ↔ o = some p := by
  cases o with
  | none => simp
  | some o => simp [LongOp.dropWord_eq hp]

/-! ### A quiet host port (R169) -/

/-- No beat is in action and every beat of every request is done. -/
theorem HostPort.quiet_iff {p : HostPort} : p.quiet = true ↔ p.action = none ∧ ∀ r ∈ p.requests, r.done = true := by
  simp [HostPort.quiet]

/-- A quiet port has no head request and no write beat. -/
theorem HostPort.head?_of_quiet {p : HostPort} (h : p.quiet = true) : p.head? = none := by
  obtain ⟨_, hd⟩ := HostPort.quiet_iff.mp h
  simpa [HostPort.head?] using hd

theorem HostPort.writeBeat_of_quiet {p : HostPort} (h : p.quiet = true) : p.writeBeat = false := by
  obtain ⟨ha, _⟩ := HostPort.quiet_iff.mp h
  simp [HostPort.writeBeat, ha]

/-- A quiet port that is REFUSING stays quiet: what it accepts is refused whole (R145). -/
theorem HostMove.quiet {p : HostPort} (h : HostMove s p) (hq : s.host.quiet = true) (hr : s.host.state = .refusing) :
    p.quiet = true := by
  have hhead := HostPort.head?_of_quiet hq
  obtain ⟨ha, hd⟩ := HostPort.quiet_iff.mp hq
  rw [HostPort.quiet_iff]
  cases h with
  | finish o =>
    have : (s.finishBeat o).host.requests = s.host.requests := modifyFirst_none hhead
    exact ⟨rfl, by rw [this]; exact hd⟩
  | decode _ _ hr => exact absurd (hhead.symm.trans hr) nofun
  | join _ hj => exact absurd (ha.symm.trans hj) nofun
  | enqueue _ _ hdone =>
    refine ⟨ha, fun q hm => ?_⟩
    rcases List.mem_append.mp hm with hm | hm
    · exact hd q hm
    · rw [List.mem_singleton.mp hm]
      exact hdone hr
  | answer _ hreq _ => exact ⟨ha, fun q hm => hd q (by rw [hreq]; exact List.mem_cons_of_mem _ hm)⟩

/-- Only the decode puts a write beat into action (R148): not while the port is HELD or quiet. -/
theorem HostMove.writeBeat {p : HostPort} (h : HostMove s p) (hw : s.host.writeBeat = false)
    (hn : s.host.state = .held ∨ s.host.quiet = true) : p.writeBeat = false := by
  cases h with
  | finish o => rfl
  | decode hh _ hr =>
    rcases hn with hn | hn
    · exact absurd hn hh
    · exact absurd ((HostPort.head?_of_quiet hn).symm.trans hr) nofun
  | join _ _ => rfl
  | enqueue _ _ _ => exact hw
  | answer _ _ _ => exact hw

theorem HostMove.state {p : HostPort} (h : HostMove s p) : p.state = s.host.state := by
  cases h with
  | decode _ _ _ => rcases s.decodeBeat_cases _ with ⟨o, h⟩ | ⟨x, h, _⟩ <;> rw [h] <;> rfl
  | _ => rfl

/-! ### The agreement of slot, port, write and load -/

/-- The occupant that a load of each kind has, as the agreement reads it. -/
theorem LoadKind.occupant_bind (k : LoadKind) : k.occupant.bind LongOp.writeSlot? = none := by cases k <;> rfl

theorem OperationSound.host {p : HostPort} (hs : OperationSound s) (h : HostMove s p) :
    OperationSound { s with host := p } := by
  obtain ⟨hprog, hphase, hclose, href, hquiet, hload⟩ := hs
  have hst := h.state
  refine ⟨hprog, hphase, hclose, by rw [hst]; exact href, fun hp => ?_, ?_⟩
  · have hr : s.host.state = .refusing := href.mpr (by rcases hp with hp | hp <;> rw [show s.mgmt.slot = _ from hp] <;> rfl)
    exact h.quiet (hquiet hp) hr
  · show (match s.store.load with
      | none => _
      | some l => _)
    cases hl : s.store.load with
    | none =>
      rw [hl] at hload
      exact ⟨by rw [hst]; exact hload.1, hload.2⟩
    | some l =>
      rw [hl] at hload
      obtain ⟨h1, h2, h3⟩ := hload
      refine ⟨by rw [hst]; exact h1, h2, h.writeBeat h3 ?_⟩
      obtain ⟨k, st⟩ := l
      cases k with
      | startUp | profileLoad n => exact .inl h1
      | softReset => exact .inr (hquiet (.inr h2))

/-- The agreement while no load runs. -/
theorem OperationSound.of_no_load (hprog : s.store.programming.map Programming.slot = s.mgmt.slot.bind LongOp.writeSlot?)
    (hphase : ∀ p, s.mgmt.slot = some (.softReset p) → p = .phase2 ∨ p = .phase3)
    (hclose : ∀ n, s.mgmt.slot = some (.closeWindow n) → ∃ v, s.window n = .draining v)
    (href : s.host.state = .refusing ↔ s.mgmt.slot.any LongOp.isSoftReset = true)
    (hquiet : s.mgmt.slot = some (.softReset .phase3) → s.host.quiet = true) (hl : s.store.load = none)
    (hh : s.host.state ≠ .held) (ha : s.mgmt.slot.any LongOp.isLoad = false) : OperationSound s := by
  refine ⟨hprog, fun p hp => (hphase p hp).imp_right .inl, hclose, href, fun hp => ?_, ?_⟩
  · rcases hp with hp | hp
    · exact hquiet hp
    · exact absurd (hphase _ hp) (by decide)
  · rw [hl]
    exact ⟨hh, ha⟩

/-- The agreement with an empty slot and no load. -/
theorem OperationSound.of_empty (hp : s.store.programming = none) (hs : s.mgmt.slot = none)
    (hh : s.host.state = .accepting) (hl : s.store.load = none) : OperationSound s :=
  .of_no_load (by rw [hp, hs]; rfl) (by rw [hs]; exact nofun) (by rw [hs]; exact nofun)
    (by rw [hh, hs]; exact ⟨nofun, nofun⟩) (by rw [hs]; exact nofun) hl (by rw [hh]; exact nofun) (by rw [hs]; rfl)

/-- A window other than one that is DRAINING is changed. -/
theorem OperationSound.table {b : Table} (hs : OperationSound s) (h : TableMove s b) :
    OperationSound { s with table := b } := by
  obtain ⟨hprog, hphase, hclose, hrest⟩ := hs
  refine ⟨hprog, hphase, fun n hn => ?_, hrest⟩
  obtain ⟨v, hv⟩ := hclose n hn
  have other {m : Fin 8} {w : Window} (hm : ∀ v, s.window m ≠ .draining v) : ∃ v, (s.setWindow m w).window n = .draining v := by
    refine ⟨v, ?_⟩
    rw [State.setWindow_other s w (by rintro rfl; exact hm v hv)]
    exact hv
  cases h with
  | stage _ => exact ⟨v, hv⟩
  | opens _ _ hw _ => exact other (by simp [hw])
  | change hw _ => exact other (by simp [hw])
  | drain hw _ => exact other (by simp [hw])

/-- No load runs while the slot holds what no load has. -/
theorem OperationSound.no_load (hs : OperationSound s) (h : ∀ k : LoadKind, s.mgmt.slot ≠ k.occupant) :
    s.store.load = none := by
  obtain ⟨_, _, _, _, _, hload⟩ := hs
  cases hl : s.store.load with
  | none => rfl
  | some l =>
    rw [hl] at hload
    exact absurd hload.2.1 (h l.kind)

/-- While frames are taken and the slot is empty, no load runs and no write is in flight (R180). -/
theorem OperationSound.empty (hs : OperationSound s) (hr : s.ready) (h : s.mgmt.slot = none) :
    s.store.load = none ∧ s.store.programming = none ∧ s.host.state = .accepting := by
  obtain ⟨hprog, _, _, href, _, hload⟩ := hs
  have hl : s.store.load = none := by
    cases hl : s.store.load with
    | none => rfl
    | some l =>
      rw [hl] at hload
      obtain ⟨k, st⟩ := l
      obtain ⟨_, hocc, _⟩ := hload
      rw [h] at hocc
      cases k with
      | startUp => simp [State.ready, State.startingUp, hl] at hr
      | profileLoad n | softReset => cases hocc
  rw [hl] at hload
  rw [h] at hprog href
  refine ⟨hl, by simpa using hprog, ?_⟩
  cases hst : s.host.state with
  | accepting => rfl
  | refusing => exact absurd (href.mp hst) nofun
  | held => exact absurd hst hload.1

/-- What the agreement reads of the slot is the same after a word has left its wait set. -/
theorem OperationSound.dropWord (hs : OperationSound s) (a : Nat) :
    OperationSound (s.setSlot (s.mgmt.slot.map fun o => o.dropWord a)) := by
  obtain ⟨hprog, hphase, hclose, href, hquiet, hload⟩ := hs
  have hflush (p : LongOp) (hp : ∀ sel ws, p ≠ .flush sel ws) :
      s.mgmt.slot.map (fun o => o.dropWord a) = some p ↔ s.mgmt.slot = some p := dropWord_slot hp
  have hwrite : (s.mgmt.slot.map fun o => o.dropWord a).bind LongOp.writeSlot? = s.mgmt.slot.bind LongOp.writeSlot? := by
    cases s.mgmt.slot <;> simp
  have hreset : (s.mgmt.slot.map fun o => o.dropWord a).any LongOp.isSoftReset = s.mgmt.slot.any LongOp.isSoftReset := by
    cases s.mgmt.slot <;> simp
  have hisLoad : (s.mgmt.slot.map fun o => o.dropWord a).any LongOp.isLoad = s.mgmt.slot.any LongOp.isLoad := by
    cases s.mgmt.slot <;> simp
  refine ⟨hprog.trans hwrite.symm, fun p hp => hphase p ((hflush _ (by simp)).mp hp),
    fun n hn => hclose n ((hflush _ (by simp)).mp hn), href.trans (by exact hreset ▸ Iff.rfl),
    fun hp => hquiet (hp.imp (hflush _ (by simp)).mp (hflush _ (by simp)).mp), ?_⟩
  show (match s.store.load with
    | none => s.host.state ≠ _ ∧ (s.mgmt.slot.map fun o => o.dropWord a).any _ = _
    | some l => _ ∧ s.mgmt.slot.map (fun o => o.dropWord a) = _ ∧ s.host.writeBeat = false)
  cases hl : s.store.load with
  | none =>
    rw [hl] at hload
    exact ⟨hload.1, hisLoad.trans hload.2⟩
  | some l =>
    rw [hl] at hload
    obtain ⟨h1, h2, h3⟩ := hload
    refine ⟨h1, ?_, h3⟩
    rw [h2]
    cases l.kind <;> rfl

theorem OperationSound.operation (hs : OperationSound s) (h : OperationMove s t) : OperationSound t := by
  have hs' := hs
  obtain ⟨hprog, hphase, hclose, href, hquiet, hload⟩ := hs
  cases h with
  | drop a => exact hs'.dropWord a
  | closeTaken hr hn hv =>
    obtain ⟨hl, hp, hst⟩ := hs'.empty hr hn
    have hst : s.host.state = .accepting := hst
    refine .of_no_load (congrArg _ hp) nofun ?_ (by exact hst ▸ ⟨nofun, nofun⟩) nofun hl (by exact hst ▸ nofun) rfl
    rintro _ ⟨⟩
    exact ⟨_, hv⟩
  | flushTaken sel ws hr hn =>
    obtain ⟨hl, hp, hst⟩ := hs'.empty hr hn
    exact .of_no_load (congrArg _ hp) nofun nofun (by exact hst ▸ ⟨nofun, nofun⟩) nofun hl (by exact hst ▸ nofun) rfl
  | flushEnds hf =>
    have hl := hs'.no_load (by rw [hf]; intro k; cases k <;> exact nofun)
    rw [hf] at hprog href
    rw [hl] at hload
    exact .of_no_load hprog nofun nofun href nofun hl hload.1 rfl
  | resetTaken hr hw hp =>
    have hwrite : s.mgmt.slot.bind LongOp.writeSlot? = none := by
      cases ho : s.mgmt.slot with
      | none => rfl
      | some o => cases o with
        | profileWrite n => exact absurd ho (hw n)
        | _ => rfl
    refine .of_no_load (hprog.trans hwrite) ?_ nofun ⟨fun _ => rfl, fun _ => rfl⟩ nofun rfl nofun rfl
    rintro _ ⟨⟩
    exact .inl rfl
  | phase2Ends h2 hq =>
    have hl := hs'.no_load (by rw [h2]; intro k; cases k <;> exact nofun)
    rw [h2] at hprog href
    rw [hl] at hload
    refine .of_no_load hprog ?_ nofun href (fun _ => hq) hl hload.1 rfl
    rintro _ ⟨⟩
    exact .inr rfl
  | loadTaken hr hn hq =>
    obtain ⟨_, hp, _⟩ := hs'.empty hr hn
    refine ⟨congrArg _ hp, nofun, nofun, ⟨nofun, nofun⟩, nofun, rfl, rfl, ?_⟩
    simp only [State.quietForLoad, Bool.and_eq_true, Bool.not_eq_true'] at hq
    exact hq.2
  | loadMoves st' hl =>
    rw [hl] at hload
    exact ⟨hprog, hphase, hclose, href, hquiet, hload⟩
  | loadFails hl =>
    rw [hl] at hload
    obtain ⟨_, ho, _⟩ := hload
    rw [ho] at hprog
    exact .of_empty (Option.map_eq_none_iff.mp hprog) rfl rfl rfl

/-- The end of a programming leaves no write in flight and the load as it was. -/
theorem State.endProgramming_programming (s : State) (w : Programming) (failed : List (Nat × Byte)) :
    (s.endProgramming w failed).store.programming = none
      ∧ (s.endProgramming w failed).store.load = s.store.load := by
  unfold State.endProgramming
  simp only
  split
  · split <;> exact ⟨rfl, rfl⟩
  · exact ⟨rfl, rfl⟩

/-- A write in flight has the slot (R198). -/
theorem OperationSound.write_slot {w : Programming} (hs : OperationSound s) (hw : s.store.programming = some w) :
    s.mgmt.slot = some (.profileWrite w.slot) := by
  obtain ⟨hprog, _⟩ := hs
  rw [hw] at hprog
  obtain ⟨o, ho, hb⟩ := Option.bind_eq_some_iff.mp hprog.symm
  cases o with
  | profileWrite n => cases hb; exact ho
  | _ => cases hb

theorem OperationSound.mark (hs : OperationSound s) (h : MarkMove s t) : OperationSound t := by
  cases h with
  | writeTaken hr hn _ =>
    obtain ⟨hl, _, hst⟩ := hs.empty hr hn
    exact .of_no_load rfl nofun nofun (by exact hst ▸ ⟨nofun, nofun⟩) nofun hl (by exact hst ▸ nofun) rfl
  | @writeEnds w store failed hw hp =>
    have hocc := hs.write_slot hw
    have hl := hs.no_load (by rw [hocc]; intro k; cases k <;> exact nofun)
    have hstore := s.endProgramming_programming w failed
    rw [hp] at hstore
    obtain ⟨hp', hl'⟩ := hstore
    obtain ⟨_, _, _, href, _, hload⟩ := hs
    rw [hocc] at href
    rw [hl] at hload
    exact .of_no_load (congrArg _ hp') nofun nofun href nofun (hl'.trans hl) hload.1 rfl
  | retire _ => exact hs
  | reject _ => exact hs

theorem Move.keeps_operation (h : Move s t) (hs : OperationSound s) : OperationSound t := by
  cases h with
  | host h => exact hs.host h
  | table h => exact hs.table h
  | stream h => rw [h.frame.1]; exact hs
  | operation h => exact hs.operation h
  | @closeEnds n hn _ =>
    have hl := hs.no_load (by rw [hn]; intro k; cases k <;> exact nofun)
    obtain ⟨hprog, _, _, href, _, hload⟩ := hs
    rw [hn] at hprog href
    rw [hl] at hload
    exact .of_no_load hprog nofun nofun href nofun hl hload.1 rfl
  | phase3Ends h3 _ =>
    obtain ⟨hprog, _, _, href, hquiet, _⟩ := hs
    have hq := hquiet (.inl h3)
    rw [h3] at hprog href
    have hphase : ∀ p, some (LongOp.softReset .phase7) = some (.softReset p) → p = .phase2 ∨ p = .phase3 ∨ p = .phase7 := by
      rintro _ ⟨⟩
      exact .inr (.inr rfl)
    unfold State.phases4to7
    split <;> exact ⟨hprog, hphase, nofun, href, fun _ => hq, href.mpr rfl, rfl, HostPort.writeBeat_of_quiet hq⟩
  | _ => exact hs

/-- The end of a load whose settings were applied: the slot is empty and the port ACCEPTING (R208 to R211). -/
theorem OperationSound.endLoad {l : Load} {kind : LoadKind} {image : Option (Fin 4)} (hs : OperationSound s)
    (hl : s.store.load = some l) (hk : l.kind = kind) : OperationSound (s.endLoad kind image) := by
  obtain ⟨hprog, _, _, _, _, hload⟩ := hs
  rw [hl] at hload
  obtain ⟨_, hocc, _⟩ := hload
  rw [hk] at hocc
  rw [hocc, kind.occupant_bind] at hprog
  obtain ⟨r, ev, heq⟩ := s.endLoad_eq kind image
  rw [heq]
  refine .of_empty (Option.map_eq_none_iff.mp hprog) ?_ rfl rfl
  cases kind with
  | startUp => exact hocc
  | softReset | profileLoad n => rfl

/-- The openings of windows of a load leave the agreement alone: the slot holds no close. -/
theorem OperationSound.opens {l : Load} (hs : OperationSound s) (hl : s.store.load = some l) (h : Opens s t) :
    OperationSound t := by
  obtain ⟨ws, ev, rfl⟩ := h.frame
  obtain ⟨hprog, hphase, _, href, hquiet, hload⟩ := hs
  have hocc : s.mgmt.slot = l.kind.occupant := by
    rw [hl] at hload
    exact hload.2.1
  refine ⟨hprog, hphase, fun n hn => ?_, href, hquiet, hload⟩
  have hn : s.mgmt.slot = some (.closeWindow n) := hn
  rw [hocc] at hn
  cases hk : l.kind <;> rw [hk] at hn <;> cases hn

theorem OperationSound.moves (hs : OperationSound s) (h : Moves s t) : OperationSound t :=
  h.keeps (fun _ _ => Move.keeps_operation) hs

theorem OperationSound.acts (hs : OperationSound s) (h : Acts s t) : OperationSound t :=
  h.keeps (fun _ _ h hs => hs.mark h) (fun _ _ => Move.keeps_operation) hs

theorem OperationSound.restart (s : State) (asel : Bool) : OperationSound (s.restart asel) :=
  ⟨rfl, nofun, nofun, ⟨nofun, nofun⟩, nofun, rfl, rfl, rfl⟩

/-- Settles O58. -/
theorem operationsStaySound : Obligations.OperationsStaySound := by
  intro s t hs h
  have hs : OperationSound { s with pending := s.pending.tail } := hs
  cases step_reaches h with
  | acts hu => exact hs.acts hu
  | replied d hu =>
    have := hs.acts hu
    exact this
  | armed k => exact hs
  | restarted asel => exact OperationSound.restart _ asel
  | loaded hl ha =>
    obtain ⟨u, w, hu, hst, _, _, _, _, _, hw, heq⟩ := loaded_cases hl ha
    have hlu := (congrArg ProfileStore.load hst).trans hl
    have hlw : w.store.load = u.store.load := by
      obtain ⟨_, _, rfl⟩ := hw.frame
      rfl
    rw [heq]
    exact ((hs.moves hu).opens hlu hw).endLoad (hlw.trans hlu) rfl

end Sys2Proof.Machine
end


section
/-!
PROOF. The profile store (R195 to R201): what programming does to its bytes and marks, the ends of a write, and what a reset
leaves of an interrupted one.
-/

namespace Sys2Proof.Machine

variable {s t : State}

/-! ### Bits turned to 0 stay 0 (section 1.7.6) -/

/-- The second bytes hold no bit that the first do not. -/
def otpBelow (m m' : List Host.Cell) : Prop := ∀ a, otpRead m' a &&& otpRead m a = otpRead m' a

theorem otpBelow.refl (m : List Host.Cell) : otpBelow m m := fun _ => BitVec.and_self

theorem otpBelow.trans {m m' m'' : List Host.Cell} (h : otpBelow m m') (h' : otpBelow m' m'') : otpBelow m m'' := by
  intro a
  calc otpRead m'' a &&& otpRead m a = otpRead m'' a &&& otpRead m' a &&& otpRead m a := by rw [h' a]
    _ = otpRead m'' a &&& otpRead m' a := by rw [BitVec.and_assoc, h a]
    _ = otpRead m'' a := h' a

/-- A byte put that is not FFh reads back, over bytes of any form. -/
theorem otpRead_put_programmed (m : List Host.Cell) (a : Nat) {b : Byte} (hb : b ≠ 0xFF) : otpRead (otpPut m a b) a = b := by
  induction m with
  | nil => simp only [otpPut, if_neg hb, otpRead, if_true]
  | cons c rest ih =>
    obtain ⟨k, v⟩ := c
    simp only [otpPut, if_neg hb]
    split
    · simp only [otpRead, if_true]
    · split
      · rename_i hk
        simp only [otpRead, hk, if_true]
      · rename_i hk
        simp only [otpRead, if_neg (Ne.symm hk)]
        exact ih

theorem otpBelow_program (m : List Host.Cell) (a : Nat) (b : Byte) : otpBelow m (otpProgram m a b) := by
  intro a'
  by_cases ha : a' = a
  · subst ha
    unfold otpProgram
    by_cases hb : otpRead m a' &&& b = 0xFF
    · have hff : otpRead m a' = 0xFF := by
        have h : (0xFF : Byte) &&& otpRead m a' = 0xFF := by
          rw [← hb, BitVec.and_comm, ← BitVec.and_assoc, BitVec.and_self]
        rw [← h]
        exact (BitVec.allOnes_and (x := otpRead m a')).symm
      rw [hff]
      exact BitVec.and_allOnes
    · rw [otpRead_put_programmed m a' hb, BitVec.and_comm, ← BitVec.and_assoc, BitVec.and_self]
  · rw [otpRead_program_other m b ha, BitVec.and_self]

theorem otpBelow_programAll (m : List Host.Cell) (a : Nat) (bs : List Byte) : otpBelow m (otpProgramAll m a bs) := by
  induction bs generalizing m a with
  | nil => exact .refl m
  | cons b rest ih => exact (otpBelow_program m a b).trans (ih _ _)

/-! ### The bytes of a slot -/

/-- Bytes of slots have their own addresses. -/
theorem slotAddress_inj {n k : Fin 4} {i j : Nat} (hi : i < 512) (hj : j < 512) (h : slotAddress n i = slotAddress k j) :
    n = k ∧ i = j := by
  simp only [slotAddress, Config.slotBytes] at h
  exact ⟨Fin.ext (by omega), by omega⟩

/-- A slot's image programmed byte by byte, some bits of each left out. -/
theorem otpRead_programSlot {m : List Host.Cell} {n : Fin 4} {image : List Byte} (g : Nat → Byte) {i : Nat}
    (hi : i < image.length) (h : otpWf m = true) :
    otpRead (otpProgramAll m (slotAddress n 0) (image.zipIdx.map fun c => c.1 ||| g c.2)) (slotAddress n i)
      = otpRead m (slotAddress n i) &&& (image.getD i 0 ||| g i) := by
  have hs : slotAddress n i = slotAddress n 0 + i := by simp [slotAddress]
  rw [hs, otpRead_programAll _ _ (by simpa using hi) h]
  simp [hi]

theorem otpRead_programSlot_other (m : List Host.Cell) {n : Fin 4} {image : List Byte} (g : Nat → Byte) {a : Nat}
    (ha : ∀ i < image.length, a ≠ slotAddress n i) :
    otpRead (otpProgramAll m (slotAddress n 0) (image.zipIdx.map fun c => c.1 ||| g c.2)) a = otpRead m a := by
  refine otpRead_programAll_outside _ _ _ ?_
  by_contra hc
  simp only [List.length_map, List.length_zipIdx, not_or, not_lt, not_le] at hc
  refine ha (a - slotAddress n 0) (by omega) ?_
  simp only [slotAddress] at hc ⊢
  omega

/-! ### Captured images (R198) -/

theorem WindowValues.descriptor_length (v : WindowValues) : v.descriptor.length = 32 := by
  unfold WindowValues.descriptor WindowValues.descriptorBody
  cases v.key <;> cases v.clip <;> cases v.origin <;> rfl

/-- Parts of 32 bytes for the eight windows. -/
theorem windowParts_length (b : Table) {f : Window → List Byte} (h : ∀ w, (f w).length = 32) :
    (b.windows.toList.flatMap f).length = 256 := by
  rw [List.length_flatMap, List.map_congr_left fun w _ => h w]
  simp

/-- A captured image is its 508 bytes. -/
theorem captureImage_length (g : Settings) (b : Table) : (captureImage g b).length = 508 := by
  unfold captureImage
  simp only [List.length_append]
  rw [windowParts_length]
  · simp only [show g.bytes.length = 9 from rfl, List.length_replicate, List.length_singleton,
      show ∀ n, (le16Of n).length = 2 from fun _ => rfl]
  · intro w
    cases w.active? with
    | none => rfl
    | some v => exact v.descriptor_length

/-! ### The held states and the marks (R195 to R197) -/

/-- A slot whose marks read as before is as sound as before. -/
theorem slotSound_congr {m m' : List Host.Cell} {p p' : Option Programming} {n : Fin 4} {h : SlotState}
    (hm : ∀ i, 508 ≤ i → i < 512 → otpRead m' (slotAddress n i) = otpRead m (slotAddress n i))
    (hp : h = .programming → p'.map Programming.slot = p.map Programming.slot) (hs : slotSound m p n h) :
    slotSound m' p' n h := by
  have hmarks : slotMarks m' n = slotMarks m n := by
    simp only [slotMarks, hm 508 (by omega) (by omega), hm 509 (by omega) (by omega), hm 510 (by omega) (by omega),
      hm 511 (by omega) (by omega)]
  cases h with
  | blank =>
    intro i h1 h2
    rw [hm i h1 h2]
    exact hs i h1 h2
  | programming =>
    obtain ⟨hslot, hstart, hrest⟩ := hs
    refine ⟨(hp rfl).trans hslot, ?_, fun i h1 h2 => ?_⟩
    · rw [hm 508 (by omega) (by omega)]
      exact hstart
    · rw [hm i (by omega) h2]
      exact hrest i h1 h2
  | written | retired | damaged => exact hmarks.trans hs

/-- The marks of a slot that holds its own state are those of a slot of that state, with no write in flight. -/
theorem slotMarks_of_sound {m : List Host.Cell} {p : Option Programming} {n : Fin 4} {h : SlotState}
    (hs : slotSound m p n h) : slotMarks m n = if h = .programming then .damaged else h := by
  cases h with
  | blank =>
    have hs : ∀ i, 508 ≤ i → i < 512 → _ := hs
    simp [slotMarks, stateOfMarks, hs 508 (by omega) (by omega), hs 511 (by omega) (by omega)]
  | programming =>
    obtain ⟨_, hstart, hrest⟩ := hs
    have hstart : ¬ otpRead m (slotAddress n 508) = 255#8 := hstart
    simp [slotMarks, stateOfMarks, hstart, hrest 509 (by omega) (by omega), hrest 511 (by omega) (by omega)]
  | written | retired | damaged => exact hs

/-- A state that the marks decide is sound. -/
theorem slotSound_marks (m : List Host.Cell) (p : Option Programming) (n : Fin 4) (hb : slotMarks m n = .blank →
    ∀ i, 508 ≤ i → i < 512 → otpRead m (slotAddress n i) = 0xFF) : slotSound m p n (slotMarks m n) := by
  cases h : slotMarks m n with
  | blank => exact hb h
  | programming =>
    unfold slotMarks stateOfMarks at h
    split at h
    · cases h
    · split at h
      · cases h
      · split at h
        · cases h
        · split at h <;> cases h
  | written | retired | damaged => exact h

/-- The states a slot can have after itself. -/
theorem SlotState.canBecome_self (h : SlotState) : h.canBecome h = true := by cases h <;> rfl

theorem State.heldState_of_set {n k : Fin 4} {h : SlotState} {m m' : Vector SlotState 4} (hm : m' = m.set n h) :
    m'[k] = if k = n then h else m[k] := by
  subst hm
  by_cases hk : k = n
  · simp [hk]
  · have : n.val ≠ k.val := fun h => hk (Fin.ext h.symm)
    simp [hk, this]

/-- One slot is given a held state and the marks for it; the other slots keep theirs. -/
theorem StoreSound.of_slot {n : Fin 4} {h : SlotState} (hs : StoreSound s) (hw : otpWf t.store.otp = true)
    (hh : t.store.held = s.store.held.set n h)
    (ho : ∀ k ≠ n, ∀ i < 512, otpRead t.store.otp (slotAddress k i) = otpRead s.store.otp (slotAddress k i))
    (hp : ∀ k ≠ n, s.heldState k = .programming → t.store.programming = s.store.programming)
    (hn : slotSound t.store.otp t.store.programming n h)
    (hi : ∀ w ∈ t.store.programming, t.heldState w.slot = .programming ∧ w.image.length = 508)
    (hc : (s.heldState n).canBecome h = true) : StoreSound t ∧ ∀ k, (s.heldState k).canBecome (t.heldState k) = true := by
  have heldt (k : Fin 4) : t.heldState k = if k = n then h else s.heldState k := State.heldState_of_set hh
  refine ⟨⟨hw, fun k => ?_, hi⟩, fun k => ?_⟩
  · rw [heldt]
    split
    · rename_i hk
      rw [hk]
      exact hn
    · rename_i hk
      exact slotSound_congr (fun i _ h2 => ho k hk i h2) (fun hb => by rw [hp k hk hb]) (hs.2.1 k)
  · rw [heldt]
    split
    · rename_i hk
      rw [hk]
      exact hc
    · exact SlotState.canBecome_self _

/-! ### The end of a programming (R200) -/

/-- The bytes of an ended programming (R199): every byte of the image is programmed, less the bits that did not take. -/
theorem otpRead_programImage {m : List Host.Cell} {w : Programming} (failed : List (Nat × Byte)) {i : Nat}
    (hi : i < w.image.length) (h : otpWf m = true) :
    otpRead (programImage m w failed) (slotAddress w.slot i)
      = otpRead m (slotAddress w.slot i) &&& (w.image.getD i 0 ||| failedAt failed i) :=
  otpRead_programSlot (failedAt failed) hi h

theorem otpRead_programImage_other (m : List Host.Cell) {w : Programming} (failed : List (Nat × Byte)) {a : Nat}
    (ha : ∀ i < w.image.length, a ≠ slotAddress w.slot i) : otpRead (programImage m w failed) a = otpRead m a :=
  otpRead_programSlot_other m (failedAt failed) ha

/-- The read-back matches and the finished mark reads set (R200). -/
def State.writeVerified (s : State) (w : Programming) (failed : List (Nat × Byte)) : Bool :=
  readBackMatches (programImage s.store.otp w failed) w
  && otpRead (otpProgram (programImage s.store.otp w failed) (slotAddress w.slot 509) (failedAt failed 509))
      (slotAddress w.slot 509) != 0xFF

/-- The bytes when a programming ends, before the damaged mark of a write that failed. -/
def State.bytesEnded (s : State) (w : Programming) (failed : List (Nat × Byte)) : List Host.Cell :=
  if readBackMatches (programImage s.store.otp w failed) w
  then otpProgram (programImage s.store.otp w failed) (slotAddress w.slot 509) (failedAt failed 509)
  else programImage s.store.otp w failed

/-- A write verified leaves the slot WRITTEN. -/
theorem State.endProgramming_verified {w : Programming} {failed : List (Nat × Byte)} (h : s.writeVerified w failed = true) :
    s.endProgramming w failed = State.post { s with
      store := { s.store with otp := s.bytesEnded w failed, held := s.store.held.set w.slot .written, programming := none }
      mgmt := { s.mgmt with slot := none } } (.opDone 0x61 .done) := by
  simp only [State.writeVerified, Bool.and_eq_true, bne_iff_ne] at h
  obtain ⟨hm, hf⟩ := h
  have hf : ¬ _ = 255#8 := hf
  simp [State.endProgramming, State.bytesEnded, hm, hf, State.endLongOp, State.setSlot]

/-- Every other write leaves the slot DAMAGED. -/
theorem State.endProgramming_failed {w : Programming} {failed : List (Nat × Byte)} (h : s.writeVerified w failed = false) :
    s.endProgramming w failed = State.post { s with
      store := { s.store with
        otp := otpProgram (s.bytesEnded w failed) (slotAddress w.slot 511) 0x00
        held := s.store.held.set w.slot .damaged, programming := none }
      mgmt := { s.mgmt with slot := none } } (.opDone 0x61 .fault) := by
  simp only [State.writeVerified] at h
  cases hm : readBackMatches (programImage s.store.otp w failed) w with
  | false => simp [State.endProgramming, State.bytesEnded, hm, State.writeFails, State.markSlot, State.endLongOp, State.setSlot]
  | true =>
    have hf := by simpa [hm] using h
    simp [State.endProgramming, State.bytesEnded, hm, hf, State.writeFails, State.markSlot, State.endLongOp, State.setSlot]

theorem State.endProgramming_verified_store {w : Programming} {failed : List (Nat × Byte)}
    (h : s.writeVerified w failed = true) : (s.endProgramming w failed).store = { s.store with
      otp := s.bytesEnded w failed, held := s.store.held.set w.slot .written, programming := none } := by
  rw [State.endProgramming_verified h]
  rfl

theorem State.endProgramming_failed_store {w : Programming} {failed : List (Nat × Byte)}
    (h : s.writeVerified w failed = false) : (s.endProgramming w failed).store = { s.store with
      otp := otpProgram (s.bytesEnded w failed) (slotAddress w.slot 511) 0x00
      held := s.store.held.set w.slot .damaged, programming := none } := by
  rw [State.endProgramming_failed h]
  rfl

theorem State.bytesEnded_wf {w : Programming} {failed : List (Nat × Byte)} (h : otpWf s.store.otp = true) :
    otpWf (s.bytesEnded w failed) = true := by
  unfold State.bytesEnded
  split
  · exact otpProgram_wf _ _ (programImage_wf _ _ h)
  · exact programImage_wf _ _ h

/-- But for the image and the finished mark every byte is as it was. -/
theorem State.bytesEnded_other {w : Programming} {failed : List (Nat × Byte)} (hl : w.image.length = 508) {a : Nat}
    (ha : ∀ i < 508, a ≠ slotAddress w.slot i) (h9 : a ≠ slotAddress w.slot 509) :
    otpRead (s.bytesEnded w failed) a = otpRead s.store.otp a := by
  have := otpRead_programImage_other s.store.otp failed (w := w) (a := a) (by rw [hl]; exact ha)
  unfold State.bytesEnded
  split
  · rw [otpRead_program_other _ _ h9, this]
  · exact this

theorem State.bytesEnded_below (s : State) (w : Programming) (failed : List (Nat × Byte)) :
    otpBelow s.store.otp (s.bytesEnded w failed) := by
  unfold State.bytesEnded
  split
  · exact (otpBelow_programAll _ _ _).trans (otpBelow_program _ _ _)
  · exact otpBelow_programAll _ _ _

/-- The finished mark of a write verified reads set (R200). -/
theorem State.finished_set {w : Programming} {failed : List (Nat × Byte)} (h : s.writeVerified w failed = true) :
    otpRead (s.bytesEnded w failed) (slotAddress w.slot 509) ≠ 0xFF := by
  simp only [State.writeVerified, Bool.and_eq_true, bne_iff_ne] at h
  simp only [State.bytesEnded, h.1, if_true]
  exact h.2

/-- A mark of a slot lies outside the bytes of its image and is no other mark. -/
theorem slotAddress_ne {n k : Fin 4} {i j : Nat} (hi : i < 512) (hj : j < 512) (h : n ≠ k ∨ i ≠ j) :
    slotAddress n i ≠ slotAddress k j := by
  intro he
  obtain ⟨hn, hij⟩ := slotAddress_inj hi hj he
  exact h.elim (absurd hn) (absurd hij)

/-! ### Changes of marks -/

theorem MarkMove.below (h : MarkMove s t) : otpBelow s.store.otp t.store.otp := by
  cases h with
  | writeTaken _ _ _ | retire _ | reject _ => exact otpBelow_program _ _ _
  | @writeEnds w store failed _ hstore =>
    cases hv : s.writeVerified w failed with
    | true =>
      obtain rfl := hstore.symm.trans (State.endProgramming_verified_store hv)
      dsimp only
      exact s.bytesEnded_below w failed
    | false =>
      obtain rfl := hstore.symm.trans (State.endProgramming_failed_store hv)
      dsimp only
      exact (s.bytesEnded_below w failed).trans (otpBelow_program _ _ _)

/-- A mark programmed in a slot that leaves PROGRAMMING alone. -/
theorem StoreSound.markSlot {n : Fin 4} {i : Nat} {h : SlotState} (hs : StoreSound s) (hi : i < 512)
    (hn : slotSound (s.markSlot n i h).store.otp s.store.programming n h) (hp : s.heldState n ≠ .programming)
    (hc : (s.heldState n).canBecome h = true) :
    StoreSound (s.markSlot n i h) ∧ ∀ k, (s.heldState k).canBecome ((s.markSlot n i h).heldState k) = true := by
  have hs' := hs
  obtain ⟨hwf, _, hprog⟩ := hs
  refine StoreSound.of_slot hs' (markSlot_otp_wf n i h hwf) rfl (fun k hk j hj => ?_) (fun _ _ _ => rfl) hn
    (fun w hw => ?_) hc
  · exact otpRead_program_other _ _ (slotAddress_ne hj hi (.inl hk))
  · obtain ⟨hb, hl⟩ := hprog w hw
    refine ⟨?_, hl⟩
    rw [← hb]
    have hne : w.slot ≠ n := fun he => hp (he ▸ hb)
    exact (State.heldState_of_set rfl).trans (if_neg hne)

/-- A WRITTEN slot has its started and finished marks set, and no other (R18). -/
theorem slotMarks_written {m : List Host.Cell} {n : Fin 4} : slotMarks m n = .written ↔
    otpRead m (slotAddress n 508) ≠ 0xFF ∧ otpRead m (slotAddress n 509) ≠ 0xFF
      ∧ otpRead m (slotAddress n 510) = 0xFF ∧ otpRead m (slotAddress n 511) = 0xFF := by
  unfold slotMarks stateOfMarks
  generalize (0xFF : Byte) = unset
  by_cases h1 : otpRead m (slotAddress n 511) = unset <;> by_cases h2 : otpRead m (slotAddress n 508) = unset <;>
    by_cases h3 : otpRead m (slotAddress n 509) = unset <;> by_cases h4 : otpRead m (slotAddress n 510) = unset <;>
    simp [h1, h2, h3, h4]

/-- A RETIRED slot has its retired mark set beside them (R18). -/
theorem slotMarks_retired {m : List Host.Cell} {n : Fin 4} : slotMarks m n = .retired ↔
    otpRead m (slotAddress n 508) ≠ 0xFF ∧ otpRead m (slotAddress n 509) ≠ 0xFF
      ∧ otpRead m (slotAddress n 510) ≠ 0xFF ∧ otpRead m (slotAddress n 511) = 0xFF := by
  unfold slotMarks stateOfMarks
  generalize (0xFF : Byte) = unset
  by_cases h1 : otpRead m (slotAddress n 511) = unset <;> by_cases h2 : otpRead m (slotAddress n 508) = unset <;>
    by_cases h3 : otpRead m (slotAddress n 509) = unset <;> by_cases h4 : otpRead m (slotAddress n 510) = unset <;>
    simp [h1, h2, h3, h4]

/-- The damaged mark decides (R18). -/
theorem slotMarks_damaged {m : List Host.Cell} {n : Fin 4} (h : otpRead m (slotAddress n 511) ≠ 0xFF) :
    slotMarks m n = .damaged := by
  unfold slotMarks stateOfMarks
  rw [if_pos (by simpa using h)]

theorem and_zero_ne_ff (b : Byte) : b &&& 0x00 ≠ 0xFF := by simp

theorem MarkMove.sound (h : MarkMove s t) (ho : OperationSound s) (hs : StoreSound s) :
    StoreSound t ∧ ∀ k, (s.heldState k).canBecome (t.heldState k) = true := by
  have hs' := hs
  obtain ⟨hwf, hslots, hprog⟩ := hs
  cases h with
  | @writeTaken n hr hn hb =>
    obtain ⟨_, hnone, _⟩ := ho.empty hr hn
    have hmarks := hslots n
    rw [hb] at hmarks
    refine StoreSound.of_slot (n := n) (h := .programming) hs' (otpProgram_wf _ _ hwf) rfl (fun k hk j hj => ?_) ?_ ?_ ?_
      (by rw [hb]; rfl)
    · exact otpRead_program_other _ _ (slotAddress_ne hj (by omega) (.inl hk))
    · intro k _ hk
      have := hslots k
      rw [hk] at this
      rw [hnone] at this
      exact absurd this.1 nofun
    · refine ⟨rfl, ?_, fun i h1 h2 => ?_⟩
      · show otpRead (otpProgram _ _ _) _ ≠ _
        rw [otpRead_program_same _ _ hwf]
        exact and_zero_ne_ff _
      · show otpRead (otpProgram _ _ _) _ = _
        rw [otpRead_program_other _ _ (slotAddress_ne h2 (by omega) (.inr (by omega)))]
        exact hmarks i (by omega) h2
    · rintro _ ⟨⟩
      exact ⟨(State.heldState_of_set rfl).trans (if_pos rfl), captureImage_length _ _⟩
  | @writeEnds w store failed hw hstore =>
    obtain ⟨hb, hl⟩ := hprog w hw
    have hmarks := hslots w.slot
    rw [hb] at hmarks
    obtain ⟨_, hstart, hrest⟩ := hmarks
    have other {a : Nat} (ha : ∀ i < 508, a ≠ slotAddress w.slot i) (h9 : a ≠ slotAddress w.slot 509) :=
      State.bytesEnded_other (s := s) (failed := failed) hl ha h9
    have outside {k : Fin 4} {i : Nat} (hi : i < 512) (hk : k ≠ w.slot ∨ 508 ≤ i ∧ i ≠ 509) :
        otpRead (s.bytesEnded w failed) (slotAddress k i) = otpRead s.store.otp (slotAddress k i) :=
      other (fun j hj => slotAddress_ne hi (by omega) (hk.imp_right (by omega)))
        (slotAddress_ne hi (by omega) (hk.imp_right (by omega)))
    have alone (k : Fin 4) (hk : k ≠ w.slot) (hkp : s.heldState k = .programming) : none = s.store.programming := by
      have := hslots k
      rw [hkp] at this
      obtain ⟨hthis, _⟩ := this
      rw [hw] at hthis
      exact absurd (Option.some.inj hthis).symm hk
    have hwf' := State.bytesEnded_wf (w := w) (failed := failed) hwf
    have h8 := outside (k := w.slot) (i := 508) (by omega) (.inr (by omega))
    have h10 := outside (k := w.slot) (i := 510) (by omega) (.inr (by omega))
    have h11 := outside (k := w.slot) (i := 511) (by omega) (.inr (by omega))
    cases hv : s.writeVerified w failed with
    | true =>
      have h9 := State.finished_set hv
      obtain rfl := hstore.symm.trans (State.endProgramming_verified_store hv)
      generalize s.bytesEnded w failed = bytes at *
      refine StoreSound.of_slot (n := w.slot) (h := .written) hs' hwf' rfl
        (fun k hk j hj => outside hj (.inl hk)) alone ?_ nofun (by rw [hb]; rfl)
      exact slotMarks_written.mpr ⟨h8 ▸ hstart, h9, h10.trans (hrest 510 (by omega) (by omega)),
        h11.trans (hrest 511 (by omega) (by omega))⟩
    | false =>
      obtain rfl := hstore.symm.trans (State.endProgramming_failed_store hv)
      generalize s.bytesEnded w failed = bytes at *
      refine StoreSound.of_slot (n := w.slot) (h := .damaged) hs' (otpProgram_wf _ _ hwf') rfl
        (fun k hk j hj => ?_) alone (slotMarks_damaged ?_) nofun (by rw [hb]; rfl)
      · exact (otpRead_program_other _ _ (slotAddress_ne hj (by omega) (.inl hk))).trans (outside hj (.inl hk))
      · dsimp only
        rw [otpRead_program_same _ _ hwf']
        exact and_zero_ne_ff _
  | @retire n hn =>
    have hmarks := hslots n
    rw [hn] at hmarks
    obtain ⟨h8, h9, _, h11⟩ := slotMarks_written.mp hmarks
    refine hs'.markSlot (by omega) ?_ (by rw [hn]; exact nofun) (by rw [hn]; rfl)
    show slotMarks (otpProgram _ _ _) n = _
    have h10 := otpRead_program_same (slotAddress n 510) 0x00 hwf
    have other {i : Nat} (hi : i < 512) (h : i ≠ 510) := otpRead_program_other s.store.otp (a := slotAddress n 510) 0x00
      (slotAddress_ne (n := n) (k := n) hi (by omega) (.inr h))
    refine slotMarks_retired.mpr ⟨?_, ?_, ?_, ?_⟩
    · rw [other (by omega) (by omega)]
      exact h8
    · rw [other (by omega) (by omega)]
      exact h9
    · rw [h10]
      exact and_zero_ne_ff _
    · rw [other (by omega) (by omega)]
      exact h11
  | @reject n hn =>
    refine hs'.markSlot (by omega) ?_ (by rw [hn]; exact nofun) (by rw [hn]; rfl)
    show slotMarks (otpProgram _ _ _) n = _
    refine slotMarks_damaged ?_
    rw [otpRead_program_same _ _ hwf]
    exact and_zero_ne_ff _

/-! ### Every other move -/

/-- The store but for the load. -/
def State.sameSlots (s t : State) : Prop := t.store = { s.store with load := t.store.load }

theorem State.sameSlots.trans {u : State} (h : s.sameSlots t) (h' : t.sameSlots u) : s.sameSlots u := by
  unfold State.sameSlots at *
  rw [h', h]

theorem State.sameSlots.sound (h : s.sameSlots t) (hs : StoreSound s) : StoreSound t := by
  unfold StoreSound State.heldState
  rw [h]
  exact hs

theorem State.sameSlots.held (h : s.sameSlots t) (n : Fin 4) : t.heldState n = s.heldState n := by
  unfold State.heldState
  rw [h]

theorem Move.sameSlots (h : Move s t) : s.sameSlots t := by
  cases h with
  | stream h => rw [h.frame.1]; rfl
  | operation h => rw [h.frame]; rfl
  | phase3Ends _ _ =>
    unfold State.phases4to7
    split <;> rfl
  | _ => rfl

theorem Moves.sameSlots (h : Moves s t) : s.sameSlots t := by
  induction h with
  | refl => rfl
  | tail _ h ih => exact ih.trans h.sameSlots

theorem Acts.below (h : Acts s t) : otpBelow s.store.otp t.store.otp := by
  obtain ⟨u, hu, hm⟩ := h
  have : t.store.otp = u.store.otp := by rw [hm.sameSlots]
  rw [this]
  rcases hu with rfl | hu
  · exact .refl _
  · exact hu.below

theorem Acts.store (h : Acts s t) (ho : OperationSound s) (hs : StoreSound s) :
    StoreSound t ∧ ∀ k, (s.heldState k).canBecome (t.heldState k) = true := by
  obtain ⟨u, hu, hm⟩ := h
  have hu : StoreSound u ∧ ∀ k, (s.heldState k).canBecome (u.heldState k) = true := by
    rcases hu with rfl | hu
    · exact ⟨hs, fun k => SlotState.canBecome_self _⟩
    · exact hu.sound ho hs
  refine ⟨hm.sameSlots.sound hu.1, fun k => ?_⟩
  rw [hm.sameSlots.held]
  exact hu.2 k

/-! ### A reset during a programming (R201) -/

theorem ProfileStore.interrupted_below (p : ProfileStore) (k : Nat) : otpBelow p.otp (p.interrupted k) := by
  unfold ProfileStore.interrupted
  split
  · exact .refl _
  · exact otpBelow_programAll _ _ _

/-- An interrupted programming leaves every mark as it was. -/
theorem ProfileStore.interrupted_marks {p : ProfileStore} (h : ∀ w ∈ p.programming, w.image.length = 508) (k : Nat) (n : Fin 4)
    {i : Nat} (h1 : 508 ≤ i) (h2 : i < 512) : otpRead (p.interrupted k) (slotAddress n i) = otpRead p.otp (slotAddress n i) := by
  unfold ProfileStore.interrupted
  cases hp : p.programming with
  | none => rfl
  | some w =>
    refine otpRead_programSlot_other p.otp (fun i => Config.interruptedBits (Config.imageBytes * k + i)) fun j hj => ?_
    rw [h w hp] at hj
    exact slotAddress_ne h2 (by omega) (.inr (by omega))

theorem heldFromMarks_get (m : List Host.Cell) (n : Fin 4) : (heldFromMarks m)[n] = slotMarks m n := by
  match n with
  | 0 | 1 | 2 | 3 => rfl

theorem StoreSound.restart (hs : StoreSound s) (asel : Bool) :
    StoreSound (s.restart asel) ∧ ∀ n, (s.heldState n).canBecome ((s.restart asel).heldState n) = true := by
  obtain ⟨hwf, hslots, hprog⟩ := hs
  have hread (n : Fin 4) {i : Nat} (h1 : 508 ≤ i) (h2 : i < 512) :=
    ProfileStore.interrupted_marks (p := s.store) (fun w hw => (hprog w hw).2) s.freeCount n h1 h2
  have hmarks (n : Fin 4) : slotMarks (s.store.interrupted s.freeCount) n = slotMarks s.store.otp n := by
    simp only [slotMarks, hread n (show 508 ≤ 508 by omega) (by omega), hread n (show 508 ≤ 509 by omega) (by omega),
      hread n (show 508 ≤ 510 by omega) (by omega), hread n (show 508 ≤ 511 by omega) (by omega)]
  have hheld (n : Fin 4) : (s.restart asel).heldState n = slotMarks (s.store.interrupted s.freeCount) n :=
    heldFromMarks_get _ n
  refine ⟨⟨interrupted_wf _ _ hwf, fun n => ?_, nofun⟩, fun n => ?_⟩
  · rw [hheld]
    refine slotSound_marks _ _ n fun hb i h1 h2 => ?_
    have hb : slotMarks (s.store.interrupted s.freeCount) n = .blank := hb
    rw [hmarks, slotMarks_of_sound (hslots n)] at hb
    have hblank : s.heldState n = .blank := by
      split at hb
      · cases hb
      · exact hb
    have := hslots n
    rw [hblank] at this
    exact (hread n h1 h2).trans (this i h1 h2)
  · rw [hheld, hmarks, slotMarks_of_sound (hslots n)]
    split
    · rename_i h
      rw [h]
      rfl
    · exact SlotState.canBecome_self _

/-- Settles O57. -/
theorem profileStoreStaysSound : Obligations.ProfileStoreStaysSound := by
  intro s t h
  have start (ho : OperationSound s) : OperationSound { s with pending := s.pending.tail } := ho
  cases step_reaches h with
  | acts hu => exact ⟨hu.below, fun ho hs => hu.store (start ho) hs⟩
  | replied d hu => exact ⟨hu.below, fun ho hs => hu.store (start ho) hs⟩
  | armed k => exact ⟨otpBelow.refl _, fun _ hs => ⟨hs, fun n => SlotState.canBecome_self _⟩⟩
  | restarted asel => exact ⟨ProfileStore.interrupted_below _ _, fun _ hs => StoreSound.restart hs asel⟩
  | @loaded kind image hl ha =>
    obtain ⟨u, w, hu, hst, _, _, _, _, _, hw, heq⟩ := loaded_cases hl ha
    have hslots : s.sameSlots (w.endLoad kind image) := by
      obtain ⟨ws, ev, rfl⟩ := hw.frame
      obtain ⟨r, ev', heq'⟩ := State.endLoad_eq { u with table := { u.table with windows := ws }, events := ev } kind image
      rw [heq']
      unfold State.sameSlots
      rw [hst]
    rw [heq]
    refine ⟨?_, fun _ hs => ⟨hslots.sound hs, fun n => ?_⟩⟩
    · rw [hslots]
      exact otpBelow.refl _
    · rw [hslots.held]
      exact SlotState.canBecome_self _

end Sys2Proof.Machine
end


section
/-!
PROOF. The damage list's operations (chapter 4), each as a rule about the list of records: what is in it afterwards, which
records it leaves alone, its length and its touch order.
-/

namespace Sys2Proof.Machine

variable {l : DamageList} {p q : Record → Bool} {new r : Record} {rs : List Record} {w : Fin 8}

/-! ### Replacing records (R75) -/

/-- Where a record is selected, the new one stands at its place and the later selected ones are gone. -/
theorem replaceAll_split (p : Record → Bool) (new : Record) (rs : List Record) :
    ((∀ r ∈ rs, p r = false) ∧ replaceAll p new rs = rs)
    ∨ ∃ before r after, rs = before ++ r :: after ∧ (∀ b ∈ before, p b = false) ∧ p r = true
        ∧ replaceAll p new rs = before ++ new :: after.filter fun r => !p r := by
  induction rs with
  | nil => exact .inl ⟨nofun, rfl⟩
  | cons a rs ih =>
    cases ha : p a with
    | true => exact .inr ⟨[], a, rs, rfl, nofun, ha, by simp [replaceAll, ha]⟩
    | false =>
      rcases ih with ⟨hn, h⟩ | ⟨before, r, after, rfl, hb, hr, h⟩
      · exact .inl ⟨by simpa [ha] using hn, by simp [replaceAll, ha, h]⟩
      · exact .inr ⟨a :: before, r, after, rfl, by simpa [ha] using hb, hr, by simp [replaceAll, ha, h]⟩

/-- What is in the list after replacing: the new record for one that was selected, or one that was not. -/
theorem mem_replaceAll (h : r ∈ replaceAll p new rs) : (r = new ∧ ∃ a ∈ rs, p a = true) ∨ (r ∈ rs ∧ p r = false) := by
  rcases replaceAll_split p new rs with ⟨hn, heq⟩ | ⟨before, a, after, rfl, hb, ha, heq⟩
  · rw [heq] at h
    exact .inr ⟨h, hn r h⟩
  · rw [heq] at h
    simp only [List.mem_append, List.mem_cons, List.mem_filter, Bool.not_eq_true'] at h
    rcases h with h | rfl | ⟨h, hp⟩
    · exact .inr ⟨by simp [h], hb r h⟩
    · exact .inl ⟨rfl, a, by simp, ha⟩
    · exact .inr ⟨by simp [h], hp⟩

/-- The records of a kind that is neither selected nor new are left alone. -/
theorem replaceAll_filter_other (hn : q new = false) (hp : ∀ r ∈ rs, p r = true → q r = false) :
    (replaceAll p new rs).filter q = rs.filter q := by
  rcases replaceAll_split p new rs with ⟨_, heq⟩ | ⟨before, a, after, rfl, _, ha, heq⟩
  · rw [heq]
  · have hqa := hp a (by simp) ha
    have hafter : (after.filter fun r => !p r).filter q = after.filter q := by
      rw [List.filter_filter]
      refine List.filter_congr fun r hr => ?_
      cases hpr : p r with
      | false => simp
      | true => simp [hp r (by simp [hr]) hpr]
    rw [heq, List.filter_append, List.filter_append, List.filter_cons_of_neg (by simp [hn]),
      List.filter_cons_of_neg (by simp [hqa]), hafter]

theorem replaceAll_length_le : (replaceAll p new rs).length ≤ rs.length := by
  rcases replaceAll_split p new rs with ⟨_, heq⟩ | ⟨before, a, after, rfl, _, _, heq⟩
  · rw [heq]
  · have := List.length_filter_le (fun r => !p r) after
    simp only [heq, List.length_append, List.length_cons]
    omega

/-- Replacing takes the selected records but for one out of the list. -/
theorem replaceAll_length (h : 1 ≤ (rs.filter p).length) :
    (replaceAll p new rs).length + (rs.filter p).length = rs.length + 1 := by
  rcases replaceAll_split p new rs with ⟨hn, _⟩ | ⟨before, a, after, rfl, hb, ha, heq⟩
  · rw [List.filter_eq_nil_iff.mpr (by simpa using hn)] at h
    exact absurd h (by simp)
  · have h1 : before.filter p = [] := List.filter_eq_nil_iff.mpr (by simpa using hb)
    have h2 := List.length_eq_length_filter_add (l := after) p
    simp only [heq, List.filter_append, h1, List.filter_cons_of_pos ha, List.length_append, List.length_cons, List.length_nil]
    omega

/-! ### Changing one record -/

/-! ### The newest record (R76) -/

theorem newestOf_some {t : Record} (h : newestOf rs = some t) : t ∈ rs ∧ ∀ r ∈ rs, r.touch ≤ t.touch := by
  induction rs generalizing t with
  | nil => cases h
  | cons a rs ih =>
    simp only [newestOf] at h
    cases hn : newestOf rs with
    | none =>
      rw [hn] at h
      cases rs with
      | nil =>
        cases h
        simp
      | cons b rs =>
        simp only [newestOf] at hn
        split at hn
        · cases hn
        · split at hn <;> cases hn
    | some n =>
      obtain ⟨hmem, hmax⟩ := ih hn
      simp only [hn] at h
      split at h
      · rename_i hle
        cases h
        exact ⟨List.mem_cons_self, fun r hr => by
          rcases List.mem_cons.mp hr with rfl | hr
          · exact le_rfl
          · exact (hmax r hr).trans hle⟩
      · rename_i hlt
        cases h
        exact ⟨List.mem_cons_of_mem _ hmem, fun r hr => by
          rcases List.mem_cons.mp hr with rfl | hr
          · omega
          · exact hmax r hr⟩

/-- The tail of a window is a PENDING record of it (R76). -/
theorem DamageList.tail?_some {t : Record} (h : l.tail? w = some t) : t ∈ l.records ∧ t.pendingOf w = true :=
  List.mem_filter.mp (newestOf_some h).1

theorem Record.pendingOf_iff : r.pendingOf w = true ↔ r.state = .pending ∧ r.window = w := by
  simp [Record.pendingOf]

/-- A PENDING record is not STREAMING. -/
theorem Record.isStreaming_of_pending (h : r.state = .pending) : r.isStreaming = false := by
  simp [Record.isStreaming, h]

theorem Record.isStreaming_of_pendingOf (h : r.pendingOf w = true) : r.isStreaming = false :=
  Record.isStreaming_of_pending (Record.pendingOf_iff.mp h).1

/-! ### Growth (R79) -/

/-- The record that grows stands where it stood. -/
theorem DamageList.grow_split {t : Record} (ht : t ∈ l.records) (b : Rect) : ∃ before after,
    l.records = before ++ t :: after
    ∧ l.grow t b = ⟨before ++ { t with rect := t.rect.join b, touch := l.nextTouch } :: after, l.nextTouch + 1⟩ := by
  have hf : l.records.find? (fun r => r == t) = some t := by
    have hsome : (l.records.find? fun r => r == t).isSome = true := by
      rw [List.find?_isSome]
      exact ⟨t, ht, by simp⟩
    obtain ⟨a, ha⟩ := Option.isSome_iff_exists.mp hsome
    have := List.find?_some ha
    rw [ha, show a = t by simpa using this]
  obtain ⟨before, after, h1, _, _, h2⟩ := modifyFirst_split
    (f := fun r => { r with rect := r.rect.join b, touch := l.nextTouch }) hf
  exact ⟨before, after, h1, by rw [DamageList.grow, h2]⟩

/-! ### Insertion (R78 to R82) and the STREAMING records -/

theorem DamageList.collapse_streaming (l : DamageList) (w : Fin 8) (b : Rect) :
    (l.collapse w b).records.filter Record.isStreaming = l.records.filter Record.isStreaming :=
  replaceAll_filter_other rfl fun _ _ => Record.isStreaming_of_pendingOf

theorem DamageList.append_streaming (l : DamageList) (w : Fin 8) (b : Rect) :
    (l.append w b).records.filter Record.isStreaming = l.records.filter Record.isStreaming := by
  simp [DamageList.append, Record.isStreaming]

theorem DamageList.grow_streaming {t : Record} (ht : l.tail? w = some t) (b : Rect) :
    (l.grow t b).records.filter Record.isStreaming = l.records.filter Record.isStreaming := by
  obtain ⟨hmem, hp⟩ := DamageList.tail?_some ht
  obtain ⟨before, after, h1, h2⟩ := DamageList.grow_split hmem b
  have hs := Record.isStreaming_of_pendingOf hp
  have hs' : Record.isStreaming { t with rect := t.rect.join b, touch := l.nextTouch } = false := hs
  rw [h2, h1, List.filter_append, List.filter_append, List.filter_cons_of_neg (by simp [hs']),
    List.filter_cons_of_neg (by simp [hs])]

/-- An insertion leaves every STREAMING record alone (R74). -/
theorem DamageList.insert_streaming (l : DamageList) (w : Fin 8) (b : Rect) :
    (l.insert w b).1.records.filter Record.isStreaming = l.records.filter Record.isStreaming := by
  rcases l.insert_cases w b with h | ⟨t, ht, _, h⟩ | ⟨_, h⟩ | ⟨_, h⟩ | h <;> rw [h]
  · exact DamageList.grow_streaming ht b
  · exact l.append_streaming w b
  · exact l.collapse_streaming w _
  · exact (DamageList.append_streaming _ w b).trans (l.collapse_streaming _ _)

end Sys2Proof.Machine
end


section
/-!
PROOF. The streamer and the damage list stay in agreement over every step (R96 to R101).
-/

namespace Sys2Proof.Machine

variable {s t : State}

/-! ### The agreement but for the load -/

/-- No record is STREAMING. -/
def State.noneStreaming (s : State) : Prop := s.damage.records.filter Record.isStreaming = []

/-- The current record is the STREAMING one. -/
def State.oneStreaming (s : State) : Prop :=
  (s.damage.records.filter Record.isStreaming).map (fun r => (r.window, r.rect))
    = (s.streamer.region.map fun r => (r.window, r.rect)).toList

/-- The agreement (R96 to R98) but for the PENDING records in IDLE and for the load. -/
def State.agrees (s : State) : Prop :=
  (s.streamer.state = .off ↔ s.streamer.mode = .off)
  ∧ (s.streamer.passOpen = true → s.streamer.mode = .gated ∧ s.streamer.state.inRegion = true)
  ∧ (s.streamer.state = .idle → s.streamer.mode = .free)
  ∧ (s.streamer.state = .waitSync → s.streamer.mode = .gated)
  ∧ (s.streamer.answerTimer.isSome ↔ s.streamer.state = .awaitAnswer)
  ∧ s.oneStreaming
  ∧ (s.streamer.region.isSome ↔ s.streamer.state.inRegion = true)

/-- In IDLE no record is PENDING (R98). -/
def State.idleTaken (s : State) : Prop := s.streamer.state = .idle → s.damage.records.any Record.isPending = false

theorem StreamSound_iff : StreamSound s ↔ s.agrees ∧ s.idleTaken ∧ (s.store.load.isSome → s.damage.records = []) := by
  unfold State.agrees State.idleTaken State.oneStreaming
  constructor
  · rintro ⟨h1, h2, h3, h4, h5, h6, h7, h8⟩
    exact ⟨⟨h1, h2, fun h => (h3 h).1, h4, h5, h6, h7⟩, fun h => (h3 h).2, h8⟩
  · rintro ⟨⟨h1, h2, h3, h4, h5, h6, h7⟩, h8, h9⟩
    exact ⟨h1, h2, fun h => ⟨h3 h, h8 h⟩, h4, h5, h6, h7, h9⟩

/-- Without a region no record is STREAMING. -/
theorem State.agrees.rests (h : s.agrees) (hr : s.streamer.region = none) : s.noneStreaming := by
  obtain ⟨_, _, _, _, _, h6, _⟩ := h
  unfold State.oneStreaming at h6
  rw [hr] at h6
  exact List.map_eq_nil_iff.mp h6

/-- A state outside SENDING and AWAIT_ANSWER has no region. -/
theorem State.agrees.region (h : s.agrees) (hs : s.streamer.state.inRegion = false) : s.streamer.region = none := by
  obtain ⟨_, _, _, _, _, _, h7⟩ := h
  cases hr : s.streamer.region with
  | none => rfl
  | some r => exact absurd ((h7.mp (by rw [hr]; rfl)).symm.trans hs) (by decide)

theorem State.agrees.noRegion (h : s.agrees) (hs : s.streamer.state.inRegion = false) : s.noneStreaming := h.rests (h.region hs)

/-- The window and the rectangle of a region are those of a STREAMING record. -/
theorem State.agrees.record {r : Region} (h : s.agrees) (hr : s.streamer.region = some r) :
    ∃ q ∈ s.damage.records, q.isStreaming = true ∧ q.window = r.window ∧ q.rect = r.rect := by
  obtain ⟨_, _, _, _, _, h6, _⟩ := h
  unfold State.oneStreaming at h6
  rw [hr] at h6
  obtain ⟨q, hq, heq⟩ := List.map_eq_singleton_iff.mp h6
  have hmem : q ∈ s.damage.records.filter Record.isStreaming := by rw [hq]; exact List.mem_singleton_self q
  obtain ⟨h1, h2⟩ := List.mem_filter.mp hmem
  simp only [Prod.mk.injEq] at heq
  exact ⟨q, h1, h2, heq.1, heq.2⟩

/-- A STREAMING record is the region's. -/
theorem State.agrees.streaming {q : Record} (h : s.agrees) (hq : q ∈ s.damage.records) (hs : q.isStreaming = true) :
    ∃ r, s.streamer.region = some r ∧ q.window = r.window := by
  obtain ⟨_, _, _, _, _, h6, _⟩ := h
  have hmem : (q.window, q.rect) ∈ (s.damage.records.filter Record.isStreaming).map fun r => (r.window, r.rect) :=
    List.mem_map_of_mem (List.mem_filter.mpr ⟨hq, hs⟩)
  rw [show (s.damage.records.filter Record.isStreaming).map (fun r => (r.window, r.rect)) = _ from h6] at hmem
  cases hr : s.streamer.region with
  | none => rw [hr] at hmem; cases hmem
  | some r =>
    rw [hr] at hmem
    simp only [Option.map_some, Option.toList_some, List.mem_singleton, Prod.mk.injEq] at hmem
    exact ⟨r, rfl, hmem.1⟩

/-- The agreement where the streamer's state is outside a region: its settings, and no STREAMING record. -/
theorem State.agrees.of_resting (hoff : s.streamer.state = .off ↔ s.streamer.mode = .off)
    (hidle : s.streamer.state = .idle → s.streamer.mode = .free)
    (hwait : s.streamer.state = .waitSync → s.streamer.mode = .gated) (hpass : s.streamer.passOpen = false)
    (htimer : s.streamer.answerTimer = none) (hregion : s.streamer.region = none)
    (hstate : s.streamer.state.inRegion = false) (hnone : s.noneStreaming) : s.agrees := by
  refine ⟨hoff, by simp [hpass], hidle, hwait, ?_, ?_, by simp [hregion, hstate]⟩
  · rw [htimer]
    refine ⟨nofun, fun h => ?_⟩
    rw [h] at hstate
    cases hstate
  · unfold State.oneStreaming
    rw [hregion, show s.damage.records.filter Record.isStreaming = [] from hnone]
    rfl

/-! ### Taking a record (R88, R98 to R100) -/

/-- A record is PENDING or STREAMING. -/
theorem Record.isStreaming_iff {r : Record} : r.isStreaming = !r.isPending := by
  unfold Record.isStreaming Record.isPending
  cases r.state <;> rfl

/-- A record taken is the one STREAMING record, and the current one. -/
theorem State.withTaken_agrees {p : Record → Bool} {r : Record} (hf : s.damage.records.find? p = some r)
    (hn : s.noneStreaming) (hm : s.streamer.mode ≠ .off) (hp : s.streamer.passOpen = true → s.streamer.mode = .gated) :
    (s.withTaken p r).agrees ∧ (s.withTaken p r).idleTaken := by
  refine ⟨⟨⟨nofun, fun h => absurd h hm⟩, fun h => ⟨hp h, rfl⟩, nofun, nofun, ⟨nofun, nofun⟩, ?_, ⟨fun _ => rfl, fun _ => rfl⟩⟩,
    nofun⟩
  obtain ⟨before, after, hl, _, _, heq⟩ := modifyFirst_split (f := fun q => { q with state := .streaming }) hf
  have hn : s.damage.records.filter Record.isStreaming = [] := hn
  rw [hl, List.filter_append, List.append_eq_nil_iff] at hn
  have hafter : after.filter Record.isStreaming = [] :=
    List.filter_eq_nil_iff.mpr fun a ha => List.filter_eq_nil_iff.mp hn.2 a (List.mem_cons_of_mem _ ha)
  show ((modifyFirst p (fun q => { q with state := .streaming }) s.damage.records).filter Record.isStreaming).map _ = _
  rw [heq, List.filter_append, hn.1, List.filter_cons_of_pos (by rfl), hafter]
  rfl

/-- In IDLE the streamer takes what is PENDING, and then nothing is PENDING in IDLE. -/
theorem State.takeIfIdle_agrees (h : s.agrees) : s.takeIfIdle.agrees ∧ s.takeIfIdle.idleTaken := by
  by_cases hs : s.streamer.state = .idle
  · cases hr : s.damage.records.find? Record.isPending with
    | none =>
      rw [State.takeIfIdle_same (.inr hr)]
      exact ⟨h, fun _ => by simpa using hr⟩
    | some r =>
      rw [State.takeIfIdle_taken hs hr]
      have hn := h.noRegion (by rw [hs]; rfl)
      obtain ⟨_, h2, h3, _⟩ := h
      exact State.withTaken_agrees hr hn (by rw [h3 hs]; exact nofun) fun hp => (h2 hp).1
  · rw [State.takeIfIdle_same (.inl hs)]
    exact ⟨h, fun h => absurd h hs⟩

/-- A pass goes on, or is over. -/
theorem State.continuePass_agrees (hm : s.streamer.mode = .gated) (hr : s.streamer.region = none)
    (ht : s.streamer.answerTimer = none) (hn : s.noneStreaming) : s.continuePass.agrees ∧ s.continuePass.idleTaken := by
  cases hf : s.damage.records.find? Record.isMarked with
  | none =>
    rw [State.continuePass_over hf]
    refine ⟨.of_resting ⟨nofun, fun h => ?_⟩ nofun (fun _ => hm) rfl ht hr rfl hn, nofun⟩
    exact absurd (hm.symm.trans h) nofun
  | some r =>
    rw [State.continuePass_taken hf]
    exact State.withTaken_agrees hf hn (by rw [hm]; exact nofun) fun _ => hm

/-- The region end (R101). -/
theorem State.regionEnd_agrees (hn : s.noneStreaming) (hp : s.streamer.passOpen = true → s.streamer.mode = .gated) :
    s.regionEnd.agrees ∧ s.regionEnd.idleTaken := by
  have hpass {m : StreamMode} (hm : s.streamer.mode = m) (h : m ≠ .gated) : s.streamer.passOpen = false := by
    by_contra hc
    exact h (hm.symm.trans (hp (by simpa using hc)))
  cases hm : s.streamer.mode with
  | off =>
    rw [State.regionEnd_off hm]
    exact ⟨.of_resting ⟨fun _ => hm, fun _ => rfl⟩ nofun nofun (hpass hm nofun) rfl rfl rfl hn, nofun⟩
  | free =>
    rw [State.regionEnd_free hm]
    exact State.takeIfIdle_agrees (.of_resting ⟨nofun, fun h => absurd (hm.symm.trans h) nofun⟩ (fun _ => hm) nofun
      (hpass hm nofun) rfl rfl rfl hn)
  | gated =>
    cases ho : s.streamer.passOpen with
    | false =>
      rw [State.regionEnd_closed hm ho]
      exact ⟨.of_resting ⟨nofun, fun h => absurd (hm.symm.trans h) nofun⟩ nofun (fun _ => hm) ho rfl rfl rfl hn, nofun⟩
    | true =>
      rw [State.regionEnd_open hm ho]
      exact State.continuePass_agrees hm rfl rfl hn

/-- REGION begun or not, the region is of the same record. -/
theorem State.startRegion_agrees (h : s.agrees) : s.startRegion.agrees ∧ (s.idleTaken → s.startRegion.idleTaken) := by
  unfold State.startRegion
  cases hr : s.streamer.region with
  | none => exact ⟨h, id⟩
  | some r =>
    simp only
    split
    · obtain ⟨h1, h2, h3, h4, h5, h6, h7⟩ := h
      unfold State.oneStreaming at h6
      rw [hr] at h6 h7
      exact ⟨⟨h1, h2, h3, h4, h5, h6, h7⟩, id⟩
    · exact ⟨h, id⟩

/-! ### The damage list's operations and the STREAMING record -/

theorem DamageList.returnStreaming_none (l : DamageList) : l.returnStreaming.records.filter Record.isStreaming = [] := by
  rw [List.filter_eq_nil_iff]
  intro r hr
  obtain ⟨q, _, rfl⟩ := List.mem_map.mp hr
  exact nofun

theorem DamageList.dropStreaming_none (l : DamageList) : l.dropStreaming.records.filter Record.isStreaming = [] := by
  rw [List.filter_eq_nil_iff]
  intro r hr h
  have h' : (r.state == .streaming) = false := by simpa using (List.mem_filter.mp hr).2
  exact absurd (h'.symm.trans h) (by decide)

/-- Removing records of other kinds leaves the STREAMING ones alone. -/
theorem DamageList.remove_streaming {l : DamageList} {p : Record → Bool}
    (h : ∀ r ∈ l.records, r.isStreaming = true → p r = false) :
    (l.remove p).records.filter Record.isStreaming = l.records.filter Record.isStreaming := by
  unfold DamageList.remove
  rw [List.filter_filter]
  refine List.filter_congr fun r hr => ?_
  cases hs : r.isStreaming with
  | false => rfl
  | true => simp [h r hr hs]

theorem DamageList.remove_any {l : DamageList} {p q : Record → Bool} (h : l.records.any q = false) :
    (l.remove p).records.any q = false := by
  rw [List.any_eq_false] at h ⊢
  exact fun r hr => h r (List.mem_of_mem_filter hr)

/-- The agreement depends on the streamer and on the STREAMING records. -/
theorem State.agrees.of_damage {l : DamageList} (h : s.agrees)
    (hl : l.records.filter Record.isStreaming = s.damage.records.filter Record.isStreaming) :
    State.agrees { s with damage := l } := by
  obtain ⟨h1, h2, h3, h4, h5, h6, h7⟩ := h
  refine ⟨h1, h2, h3, h4, h5, ?_, h7⟩
  show (l.records.filter Record.isStreaming).map _ = _
  rw [hl]
  exact h6

/-- A region of another window than n: no record of n is STREAMING. -/
theorem State.agrees.other {n : Fin 8} (h : s.agrees) (hn : s.regionOf n = false) :
    ∀ r ∈ s.damage.records, r.isStreaming = true → r.window ≠ n := by
  intro q hq hs hw
  obtain ⟨r, hr, hwr⟩ := h.streaming hq hs
  rw [State.regionOf, hr] at hn
  simp only [Option.any_some, beq_eq_false_iff_ne, ne_eq] at hn
  exact hn (hwr.symm.trans hw)

/-- With a region of window n the STREAMING record is of n. -/
theorem State.agrees.same {n : Fin 8} (h : s.agrees) (hn : s.regionOf n = true) :
    ∀ r ∈ s.damage.records, r.isStreaming = true → r.window = n := by
  intro q hq hs
  obtain ⟨r, hr, hwr⟩ := h.streaming hq hs
  rw [State.regionOf, hr] at hn
  simp only [Option.any_some, beq_iff_eq] at hn
  exact hwr.trans hn

theorem State.agrees.replaced {n : Fin 8} {b : Rect} (h : s.agrees) (hn : s.regionOf n = true) :
    (s.damage.replaceWindow n b).records.filter Record.isStreaming = [] := by
  rw [List.filter_eq_nil_iff]
  intro r hr hs
  rcases mem_replaceAll hr with ⟨rfl, _⟩ | ⟨hr, hw⟩
  · cases hs
  · exact absurd (h.same hn r hr hs) (by simpa using hw)

theorem State.agrees.removed {n : Fin 8} (h : s.agrees) (hn : s.regionOf n = true) :
    (s.damage.remove fun r => r.window == n).records.filter Record.isStreaming = [] := by
  rw [List.filter_eq_nil_iff]
  intro r hr hs
  obtain ⟨hr, hw⟩ := List.mem_filter.mp hr
  exact absurd (h.same hn r hr hs) (by simpa using hw)

theorem DamageList.markPending_streaming (l : DamageList) :
    l.markPending.records.filter Record.isStreaming = l.records.filter Record.isStreaming := by
  unfold DamageList.markPending
  induction l.records with
  | nil => rfl
  | cons r rs ih =>
    rw [List.map_cons, List.filter_cons, List.filter_cons, ih]
    cases hs : r.state with
    | pending => simp [Record.isStreaming, hs]
    | streaming => simp [Record.isStreaming, hs]

/-! ### The streamer's moves -/

/-- A move of the streamer keeps the agreement (R96 to R101). -/
theorem StreamMove.agrees (h : StreamMove s t) (ha : s.agrees) (hi : s.idleTaken) : t.agrees ∧ t.idleTaken := by
  have hpass : s.streamer.passOpen = true → s.streamer.mode = .gated := fun hp => (ha.2.1 hp).1
  cases h with
  | idle => exact State.takeIfIdle_agrees ha
  | @insert w v q _ _ _ => exact State.takeIfIdle_agrees (ha.of_damage (s.damage.insert_streaming w q))
  | @replace n v _ hn hany =>
    refine ⟨ha.of_damage (replaceAll_filter_other rfl fun r hr hw => ?_), fun hs => ?_⟩
    · by_contra hc
      exact ha.other hn r hr (by simpa using hc) (by simpa using hw)
    · have hn := ha.noRegion (by rw [hs]; rfl)
      have hp := hi hs
      obtain ⟨r, hr, _⟩ := List.any_eq_true.mp hany
      rw [List.any_eq_false] at hp
      have h1 := hp r hr
      have h2 := List.filter_eq_nil_iff.mp hn r hr
      rw [Record.isStreaming_iff] at h2
      simp_all
  | @scroll n v _ hn => exact State.regionEnd_agrees (ha.replaced hn) hpass
  | close n =>
    unfold State.closeDamage
    cases hn : s.regionOf n with
    | true => exact State.regionEnd_agrees (ha.removed hn) hpass
    | false =>
      refine ⟨ha.of_damage (DamageList.remove_streaming fun r hr hs => ?_), fun hs => DamageList.remove_any (hi hs)⟩
      simpa using ha.other hn r hr hs
  | clear n =>
    refine ⟨ha.of_damage (DamageList.remove_streaming fun r hr hs => ?_), fun hs => DamageList.remove_any (hi hs)⟩
    by_contra hc
    exact absurd ((Record.isStreaming_of_pendingOf (by simpa using hc)).symm.trans hs) (by decide)
  | mode m =>
    obtain ⟨h1, h2, h3, h4, h5, h6, h7⟩ := ha
    have htimer {x : StreamState} (hs : s.streamer.state = x) (hx : x ≠ .awaitAnswer) : s.streamer.answerTimer = none := by
      rw [← Option.not_isSome_iff_eq_none, h5, hs]
      exact hx
    have hclosed (hs : s.streamer.state.inRegion = false) : s.streamer.passOpen = false := by
      by_contra hc
      exact absurd ((h2 (by simpa using hc)).2.symm.trans hs) (by decide)
    have ha : s.agrees := ⟨h1, h2, h3, h4, h5, h6, h7⟩
    cases m with
    | off =>
      simp only [State.setMode, State.abortToOff]
      cases hr : s.streamer.region with
      | none =>
        have hs : s.streamer.state.inRegion = false := by
          rw [hr] at h7
          simpa using h7
        have hne : s.streamer.state ≠ .awaitAnswer := by
          intro h
          rw [h] at hs
          cases hs
        exact ⟨.of_resting ⟨fun _ => rfl, fun _ => rfl⟩ nofun nofun rfl (htimer rfl hne) rfl rfl (ha.rests hr), nofun⟩
      | some r =>
        exact ⟨.of_resting ⟨fun _ => rfl, fun _ => rfl⟩ nofun nofun rfl rfl rfl rfl s.damage.returnStreaming_none, nofun⟩
    | free =>
      by_cases h : s.streamer.state = .off ∨ s.streamer.state = .waitSync
      · rw [State.setMode_free_takes h]
        have hs : s.streamer.state.inRegion = false := by rcases h with h | h <;> rw [h] <;> rfl
        have hne : s.streamer.state ≠ .awaitAnswer := by rcases h with h | h <;> rw [h] <;> exact nofun
        exact State.takeIfIdle_agrees (.of_resting ⟨nofun, nofun⟩ (fun _ => rfl) nofun rfl (htimer rfl hne) (ha.region hs) rfl
          (ha.noRegion hs))
      · rw [State.setMode_free_stays h]
        simp only [not_or] at h
        exact ⟨⟨⟨fun h' => absurd h' h.1, nofun⟩, nofun, fun _ => rfl, fun h' => absurd h' h.2, h5, h6, h7⟩, hi⟩
    | gated =>
      by_cases h : s.streamer.state = .off ∨ s.streamer.state = .idle
      · rw [State.setMode_gated_waits h]
        have hs : s.streamer.state.inRegion = false := by rcases h with h | h <;> rw [h] <;> rfl
        have hne : s.streamer.state ≠ .awaitAnswer := by rcases h with h | h <;> rw [h] <;> exact nofun
        exact ⟨.of_resting ⟨nofun, nofun⟩ nofun (fun _ => rfl) (hclosed hs) (htimer rfl hne) (ha.region hs) rfl
          (ha.noRegion hs), nofun⟩
      · rw [State.setMode_gated_stays h]
        simp only [not_or] at h
        exact ⟨⟨⟨fun h' => absurd h' h.1, nofun⟩, fun hp => ⟨rfl, (h2 hp).2⟩, fun h' => absurd h' h.2, fun _ => rfl, h5, h6, h7⟩,
          hi⟩
  | config f hs _ _ _ => exact ⟨ha, hi⟩
  | resume hs =>
    have hregion := ha.region (by rw [hs]; rfl)
    have hnone := ha.rests hregion
    obtain ⟨_, h2, _, _, h5, _, _⟩ := ha
    have htimer : s.streamer.answerTimer = none := by
      rw [← Option.not_isSome_iff_eq_none, h5, hs]
      exact nofun
    have hclosed : s.streamer.passOpen = false := by
      by_contra hc
      have := (h2 (by simpa using hc)).2
      rw [hs] at this
      cases this
    unfold State.resume
    split
    · rename_i hm
      exact State.takeIfIdle_agrees (.of_resting ⟨nofun, fun h => absurd (hm.symm.trans h) nofun⟩ (fun _ => hm) nofun hclosed
        htimer hregion rfl hnone)
    · rename_i hm
      exact ⟨.of_resting ⟨nofun, fun h => absurd (hm.symm.trans h) nofun⟩ nofun (fun _ => hm) rfl htimer hregion rfl hnone,
        nofun⟩
    · rename_i hm
      exact ⟨.of_resting ⟨fun _ => hm, fun _ => rfl⟩ nofun nofun hclosed htimer hregion rfl hnone, nofun⟩
  | @progress r r' hr hw hq =>
    obtain ⟨h1, h2, h3, h4, h5, h6, h7⟩ := ha
    unfold State.oneStreaming at h6
    rw [hr] at h6 h7
    refine ⟨⟨h1, h2, h3, h4, h5, ?_, h7⟩, hi⟩
    show _ = [(r'.window, r'.rect)]
    rw [hw, hq]
    exact h6
  | ended hs hr =>
    obtain ⟨h1, h2, h3, h4, h5, h6, h7⟩ := ha
    refine ⟨⟨⟨nofun, fun h => ?_⟩, fun hp => ⟨(h2 hp).1, rfl⟩, nofun, nofun, ⟨fun _ => rfl, fun _ => rfl⟩, h6,
      ⟨fun _ => rfl, fun _ => hr⟩⟩, nofun⟩
    exact absurd (hs.symm.trans (h1.mpr h)) nofun
  | accept hs => exact State.regionEnd_agrees s.damage.dropStreaming_none hpass
  | @resend r hs hr _ =>
    obtain ⟨h1, h2, h3, h4, h5, h6, h7⟩ := ha
    unfold State.oneStreaming at h6
    rw [hr] at h6
    unfold State.beginAttempt
    have := State.startRegion_agrees (s := { s with streamer := { s.streamer with
      retriesUsed := s.streamer.retriesUsed + 1, state := .sending, region := some (Region.fresh r.window r.rect)
      answerTimer := none } }) ⟨⟨nofun, fun h => absurd (hs.symm.trans (h1.mpr h)) nofun⟩, fun hp => ⟨(h2 hp).1, rfl⟩, nofun, nofun,
        ⟨nofun, nofun⟩, h6, ⟨fun _ => rfl, fun _ => rfl⟩⟩
    exact ⟨this.1, this.2 nofun⟩
  | stall hr | fail hr =>
    obtain ⟨h1, _, _, _, _, _, h7⟩ := ha
    have hoff : s.streamer.mode ≠ .off := by
      intro h
      have := h7.mp hr
      rw [h1.mpr h] at this
      cases this
    exact ⟨.of_resting ⟨nofun, fun h => absurd h hoff⟩ nofun nofun rfl rfl rfl rfl s.damage.returnStreaming_none, nofun⟩
  | sync hs =>
    have hregion := ha.region (by rw [hs]; rfl)
    have hnone := ha.rests hregion
    obtain ⟨_, _, _, h4, h5, _, _⟩ := ha
    have htimer : s.streamer.answerTimer = none := by
      rw [← Option.not_isSome_iff_eq_none, h5, hs]
      exact nofun
    exact State.continuePass_agrees (h4 hs) hregion htimer (s.damage.markPending_streaming.trans hnone)
  | tick =>
    obtain ⟨h1, h2, h3, h4, h5, h6, h7⟩ := ha
    refine ⟨⟨h1, h2, h3, h4, ?_, h6, h7⟩, hi⟩
    rw [← h5]
    show (s.streamer.answerTimer.map _).isSome = true ↔ _
    rw [Option.isSome_map]

end Sys2Proof.Machine
end


section
/-!
PROOF. What every record of the damage list keeps under the streamer's moves, and the agreement of streamer, list and load over
every step (R96 to R98).
-/

namespace Sys2Proof.Machine

variable {s t : State}

/-! ### What records keep (R78 to R91) -/

section
variable {ok : Fin 8 → Rect → Prop} (hj : ∀ w a b, ok w a → ok w b → ok w (a.join b)) {l : DamageList}
include hj

/-- A bounding box of rectangles of a window has what they have. -/
theorem boundingBox_ok {w : Fin 8} {rs : List Record} (h : ∀ r ∈ rs, ok w r.rect) {b : Rect} (hb : ok w b) :
    ok w (boundingBox b rs) := by
  unfold boundingBox
  induction rs generalizing b with
  | nil => exact hb
  | cons r rs ih => exact ih (fun q hq => h q (List.mem_cons_of_mem _ hq)) (hj w _ _ hb (h r List.mem_cons_self))

theorem boundingBoxOf_ok {w : Fin 8} {rs : List Record} (h : ∀ r ∈ rs, ok w r.rect) (hn : rs ≠ []) :
    ok w (boundingBoxOf rs) := by
  cases rs with
  | nil => exact absurd rfl hn
  | cons r rs =>
    exact boundingBox_ok hj (fun q hq => h q (List.mem_cons_of_mem _ hq)) (h r List.mem_cons_self)

omit hj in
theorem DamageList.pendingOf_ok (h : ∀ r ∈ l.records, ok r.window r.rect) (w : Fin 8) : ∀ r ∈ l.pendingOf w, ok w r.rect := by
  intro r hr
  obtain ⟨hr, hp⟩ := List.mem_filter.mp hr
  rw [← (Record.pendingOf_iff.mp hp).2]
  exact h r hr

omit hj in
theorem DamageList.append_ok {w : Fin 8} {b : Rect} (h : ∀ r ∈ l.records, ok r.window r.rect) (hb : ok w b) :
    ∀ r ∈ (l.append w b).records, ok r.window r.rect := by
  intro r hr
  rcases List.mem_append.mp hr with hr | hr
  · exact h r hr
  · rw [List.mem_singleton.mp hr]
    exact hb

omit hj in
/-- A collapse puts one record in the place of PENDING records that are there. -/
theorem DamageList.collapse_ok {w : Fin 8} {b : Rect} (h : ∀ r ∈ l.records, ok r.window r.rect)
    (hb : l.pendingOf w ≠ [] → ok w b) : ∀ r ∈ (l.collapse w b).records, ok r.window r.rect := by
  intro r hr
  rcases mem_replaceAll hr with ⟨rfl, a, ha, hp⟩ | ⟨hr, _⟩
  · exact hb (List.ne_nil_of_mem (List.mem_filter.mpr ⟨ha, hp⟩))
  · exact h r hr

theorem DamageList.grow_ok {w : Fin 8} {t : Record} {b : Rect} (h : ∀ r ∈ l.records, ok r.window r.rect)
    (ht : l.tail? w = some t) (hb : ok w b) : ∀ r ∈ (l.grow t b).records, ok r.window r.rect := by
  obtain ⟨hm, hp⟩ := DamageList.tail?_some ht
  obtain ⟨before, after, h1, h2⟩ := DamageList.grow_split hm b
  have hw : t.window = w := (Record.pendingOf_iff.mp hp).2
  rw [h1] at h
  rw [h2]
  intro r hr
  rcases List.mem_append.mp hr with hr | hr
  · exact h r (List.mem_append_left _ hr)
  · rcases List.mem_cons.mp hr with rfl | hr
    · exact hj _ _ _ (h t (by simp)) (hw ▸ hb)
    · exact h r (by simp [hr])

/-- What records of their windows have, and joins keep, an insertion keeps (R78 to R82). -/
theorem DamageList.insert_ok {w : Fin 8} {b : Rect} (h : ∀ r ∈ l.records, ok r.window r.rect) (hb : ok w b) :
    ∀ r ∈ (l.insert w b).1.records, ok r.window r.rect := by
  rcases l.insert_cases w b with heq | ⟨t, ht, _, heq⟩ | ⟨_, heq⟩ | ⟨_, heq⟩ | heq <;> rw [heq]
  · exact h
  · exact DamageList.grow_ok hj h ht hb
  · exact DamageList.append_ok h hb
  · exact DamageList.collapse_ok h fun _ => boundingBox_ok hj (DamageList.pendingOf_ok h w) hb
  · exact DamageList.append_ok (DamageList.collapse_ok h fun hn => boundingBoxOf_ok hj (DamageList.pendingOf_ok h _) hn) hb

end

/-- Records that keep their windows and rectangles keep what these have. -/
theorem State.sameRecords.ok {ok : Fin 8 → Rect → Prop} (h : s.sameRecords t)
    (hs : ∀ r ∈ s.damage.records, ok r.window r.rect) : ∀ r ∈ t.damage.records, ok r.window r.rect := by
  intro r hr
  obtain ⟨q, hq, heq⟩ := h.mem hr
  rw [show r.window = q.window from (congrArg Record.window heq).symm,
    show r.rect = q.rect from (congrArg Record.rect heq).symm]
  exact hs q hq

theorem DamageList.remove_ok {ok : Fin 8 → Rect → Prop} {l : DamageList} {p : Record → Bool}
    (h : ∀ r ∈ l.records, ok r.window r.rect) : ∀ r ∈ (l.remove p).records, ok r.window r.rect :=
  fun r hr => h r (List.mem_of_mem_filter hr)

theorem DamageList.replaceWindow_ok {ok : Fin 8 → Rect → Prop} {l : DamageList} {w : Fin 8} {b : Rect}
    (h : ∀ r ∈ l.records, ok r.window r.rect) (hb : ok w b) : ∀ r ∈ (l.replaceWindow w b).records, ok r.window r.rect := by
  intro r hr
  rcases mem_replaceAll hr with ⟨rfl, _⟩ | ⟨hr, _⟩
  · exact hb
  · exact h r hr

/-- The streamer's moves whose records are the old ones but for their states. -/
theorem State.returnStreaming_records (l : DamageList) : l.returnStreaming.records.map Record.core = l.records.map Record.core := by
  simp [DamageList.returnStreaming, Record.core, Function.comp_def]

theorem DamageList.markPending_ok {ok : Fin 8 → Rect → Prop} {l : DamageList} (h : ∀ r ∈ l.records, ok r.window r.rect) :
    ∀ r ∈ l.markPending.records, ok r.window r.rect := by
  intro r hr
  obtain ⟨q, hq, rfl⟩ := List.mem_map.mp hr
  split <;> exact h q hq

theorem State.startRegion_damage (s : State) : s.startRegion.damage = s.damage := by
  unfold State.startRegion
  split
  · rfl
  · split <;> rfl

theorem State.setMode_records (s : State) (m : StreamMode) : s.sameRecords (s.setMode m) := by
  cases m with
  | off =>
    simp only [State.setMode, State.abortToOff]
    split
    · exact ⟨State.returnStreaming_records _, rfl⟩
    · exact ⟨rfl, rfl⟩
  | free =>
    by_cases h : s.streamer.state = .off ∨ s.streamer.state = .waitSync
    · rw [State.setMode_free_takes h]
      exact State.takeIfIdle_records { s with streamer := { s.streamer with mode := .free, passOpen := false, state := .idle } }
    · rw [State.setMode_free_stays h]
      exact ⟨rfl, rfl⟩
  | gated =>
    by_cases h : s.streamer.state = .off ∨ s.streamer.state = .idle
    · rw [State.setMode_gated_waits h]
      exact ⟨rfl, rfl⟩
    · rw [State.setMode_gated_stays h]
      exact ⟨rfl, rfl⟩

theorem State.resume_records (s : State) : s.sameRecords s.resume := by
  unfold State.resume
  split
  · exact State.takeIfIdle_records { s with streamer := { s.streamer with state := .idle } }
  · exact ⟨rfl, rfl⟩
  · exact ⟨rfl, rfl⟩

/-- What the streamer's moves do to the records: a change of states, or one of the list's operations before it. -/
inductive ListMove (s : State) : DamageList → Prop
  | same : ListMove s s.damage
  | insert {w : Fin 8} {v : WindowValues} {b : Rect} : s.window w = .active v → s.admits w v b →
      s.host.writeBeat = true ∨ (s.ready ∧ s.resetOrLoad = false) → ListMove s (s.damage.insert w b).1
  | replace {n : Fin 8} {v : WindowValues} {r : Record} : s.window n = .active v → r ∈ s.damage.records → r.window = n →
      ListMove s (s.damage.replaceWindow n v.full)
  | remove (p : Record → Bool) : ListMove s (s.damage.remove p)
  | mark : ListMove s s.damage.markPending

/-- Every move of the streamer is one on the list, and then at most a change of records' states. -/
theorem StreamMove.list (h : StreamMove s t) (ha : s.agrees) :
    ∃ l, ListMove s l ∧ State.sameRecords { s with damage := l } t := by
  cases h with
  | idle => exact ⟨_, .same, s.takeIfIdle_records⟩
  | insert hw hq hl => exact ⟨_, .insert hw hq hl, State.takeIfIdle_records (s.insertRect _ _)⟩
  | replace hw _ hany =>
    obtain ⟨r, hr, hwr⟩ := List.any_eq_true.mp hany
    exact ⟨_, .replace hw hr (by simpa using hwr), rfl, rfl⟩
  | @scroll n v hw hn =>
    cases hr : s.streamer.region with
    | none => rw [State.regionOf, hr] at hn; cases hn
    | some r =>
      obtain ⟨q, hq, _, hwq, _⟩ := ha.record hr
      rw [State.regionOf, hr] at hn
      have hrn : r.window = n := by simpa using hn
      refine ⟨_, .replace hw hq (hwq.trans hrn), ?_⟩
      exact State.regionEnd_records { s.abortRegion with damage := s.damage.replaceWindow n v.full }
  | close n => exact ⟨_, .remove _, s.closeDamage_records n⟩
  | clear n => exact ⟨_, .remove _, rfl, rfl⟩
  | mode m => exact ⟨_, .same, s.setMode_records m⟩
  | resume _ => exact ⟨_, .same, s.resume_records⟩
  | accept _ => exact ⟨_, .remove _, State.regionEnd_records { s with damage := s.damage.dropStreaming }⟩
  | resend _ _ _ =>
    refine ⟨_, .same, ?_⟩
    unfold State.sameRecords State.beginAttempt
    rw [State.startRegion_damage]
    exact ⟨rfl, rfl⟩
  | stall _ | fail _ => exact ⟨_, .same, State.returnStreaming_records _, rfl⟩
  | sync _ =>
    exact ⟨_, .mark, State.continuePass_records
      { s with damage := s.damage.markPending, streamer := { s.streamer with passOpen := true } }⟩
  | config _ _ _ _ _ | progress _ _ _ | ended _ _ | tick => exact ⟨_, .same, rfl, rfl⟩

/-- What records of their windows have, and joins keep, every operation on the list keeps. -/
theorem ListMove.ok {ok : Fin 8 → Rect → Prop} (hj : ∀ w a b, ok w a → ok w b → ok w (a.join b)) {l : DamageList}
    (h : ListMove s l) (hins : ∀ w v b, s.window w = .active v → s.admits w v b → ok w b)
    (hs : ∀ r ∈ s.damage.records, ok r.window r.rect) : ∀ r ∈ l.records, ok r.window r.rect := by
  cases h with
  | same => exact hs
  | insert hw hq _ => exact DamageList.insert_ok hj hs (hins _ _ _ hw hq)
  | replace hw _ _ => exact DamageList.replaceWindow_ok hs (hins _ _ _ hw (.inr (.inl rfl)))
  | remove p => exact DamageList.remove_ok hs
  | mark => exact DamageList.markPending_ok hs

/-! ### The load and the records -/

/-- Every record is of an ACTIVE window (R74). -/
def State.recordsActive (s : State) : Prop := ∀ r ∈ s.damage.records, ∃ v, s.window r.window = .active v

/-- While a load runs the list is empty. -/
def State.loadClear (s : State) : Prop := s.store.load.isSome → s.damage.records = []

/-- What the agreement of streamer and list needs to go over every move. -/
structure Streaming (s : State) : Prop where
  operation : OperationSound s
  active : s.recordsActive
  agrees : s.agrees
  idle : s.idleTaken
  clear : s.loadClear

theorem Streaming.sound (h : Streaming s) : StreamSound s := StreamSound_iff.mpr ⟨h.agrees, h.idle, h.clear⟩

/-- A rectangle is inserted only while no load runs. -/
theorem OperationSound.no_load_insert (hs : OperationSound s)
    (h : s.host.writeBeat = true ∨ (s.ready ∧ s.resetOrLoad = false)) : s.store.load = none := by
  obtain ⟨_, _, _, _, _, hload⟩ := hs
  cases hl : s.store.load with
  | none => rfl
  | some l =>
    rw [hl] at hload
    obtain ⟨_, hocc, hw⟩ := hload
    rcases h with h | ⟨hr, hn⟩
    · exact absurd (hw.symm.trans h) (by decide)
    · obtain ⟨k, st⟩ := l
      cases k with
      | startUp => simp [State.ready, State.startingUp, hl] at hr
      | softReset | profileLoad n =>
        have hocc : s.mgmt.slot = some _ := hocc
        simp [State.resetOrLoad, hocc] at hn

theorem ListMove.empty {l : DamageList} (h : ListMove s l) (ho : OperationSound s) (hc : s.loadClear)
    (hl : s.store.load.isSome = true) : l.records = [] := by
  have he := hc hl
  cases h with
  | same => exact he
  | insert _ _ hn => rw [ho.no_load_insert hn] at hl; cases hl
  | replace _ hr _ => rw [he] at hr; cases hr
  | remove p => simp [DamageList.remove, he]
  | mark => simp [DamageList.markPending, he]

theorem State.sameRecords.empty (h : s.sameRecords t) (he : s.damage.records = []) : t.damage.records = [] := by
  have := h.1
  rw [he] at this
  exact List.map_eq_nil_iff.mp this

theorem Streaming.stream (hs : Streaming s) (h : StreamMove s t) : Streaming t := by
  obtain ⟨ho, hactive, ha, hi, hc⟩ := hs
  obtain ⟨l, hl, hsame⟩ := h.list ha
  obtain ⟨hta, hti⟩ := h.agrees ha hi
  have hf := h.frame.1
  have hwindow : t.table = s.table := by rw [hf]
  have hstore : t.store = s.store := by rw [hf]
  refine ⟨by rw [hf]; exact ho, ?_, hta, hti, fun hload => ?_⟩
  · have hok := hl.ok (ok := fun w _ => ∃ v, s.window w = .active v) (fun _ _ _ h _ => h) (fun w v _ hw _ => ⟨v, hw⟩) hactive
    intro r hr
    obtain ⟨v, hv⟩ := hsame.ok (ok := fun w _ => ∃ v, s.window w = .active v) hok r hr
    exact ⟨v, by rw [State.window, hwindow]; exact hv⟩
  · rw [hstore] at hload
    exact hsame.empty (hl.empty ho hc hload)

/-- Changes of the table leave the windows of records ACTIVE: a close has removed its window's records (R86). -/
theorem State.recordsActive.table {b : Table} (hs : s.recordsActive) (h : TableMove s b) :
    State.recordsActive { s with table := b } := by
  intro r hr
  obtain ⟨v, hv⟩ := hs r hr
  have other {n : Fin 8} {w : Window} (hn : r.window ≠ n) : ∃ v, (s.setWindow n w).window r.window = .active v :=
    ⟨v, by rw [State.setWindow_other s w hn]; exact hv⟩
  have opened {n : Fin 8} {x : WindowValues} : ∃ v, (s.setWindow n (.active x)).window r.window = .active v := by
    by_cases hn : r.window = n
    · exact ⟨x, by rw [hn, State.setWindow_same]⟩
    · exact other hn
  cases h with
  | stage _ => exact ⟨v, hv⟩
  | opens _ _ _ _ => exact opened
  | change _ _ => exact opened
  | drain _ hn => exact other (hn r hr)

/-- A load is taken only over UNUSED windows, which have no records (R179). -/
theorem State.recordsActive.quiet (hs : s.recordsActive) (h : s.quietForLoad = true) : s.damage.records = [] := by
  rw [List.eq_nil_iff_forall_not_mem]
  intro r hr
  obtain ⟨v, hv⟩ := hs r hr
  simp only [State.quietForLoad, Bool.and_eq_true, List.all_eq_true] at h
  have := h.1.1 _ (Vector.mem_toList_iff.mpr (Vector.getElem_mem r.window.isLt))
  rw [show s.table.windows[r.window.val] = s.window r.window from rfl, hv] at this
  exact absurd this (by simp)

theorem State.agrees.withSettings {g : Settings} (o : Option (Fin 4)) (he : s.damage.records = []) :
    (s.withSettings g o).agrees ∧ (s.withSettings g o).idleTaken := by
  have hn : (s.withSettings g o).noneStreaming := by
    show s.damage.records.filter _ = []
    rw [he]
    rfl
  refine ⟨.of_resting ?_ ?_ ?_ rfl rfl rfl ?_ hn, fun _ => ?_⟩
  · show g.mode.loadedState = _ ↔ g.mode = _
    cases g.mode <;> decide
  · show g.mode.loadedState = _ → g.mode = _
    cases g.mode <;> decide
  · show g.mode.loadedState = _ → g.mode = _
    cases g.mode <;> decide
  · show g.mode.loadedState.inRegion = _
    cases g.mode <;> rfl
  · show s.damage.records.any _ = false
    rw [he]
    rfl

theorem State.agrees.phases4to7 (h : s.agrees) : s.phases4to7.agrees ∧ s.phases4to7.idleTaken := by
  unfold State.phases4to7
  cases hr : s.streamer.region with
  | none =>
    obtain ⟨_, _, _, _, h5, _, h7⟩ := h
    rw [hr] at h7
    have htimer : s.streamer.answerTimer = none := by
      rw [← Option.not_isSome_iff_eq_none, h5]
      intro h
      rw [h] at h7
      exact absurd (h7.mpr rfl) nofun
    exact ⟨.of_resting ⟨fun _ => rfl, fun _ => rfl⟩ nofun nofun rfl htimer rfl rfl rfl, nofun⟩
  | some r => exact ⟨.of_resting ⟨fun _ => rfl, fun _ => rfl⟩ nofun nofun rfl rfl rfl rfl rfl, nofun⟩

theorem State.phases4to7_records (s : State) : s.phases4to7.damage.records = [] := by
  unfold State.phases4to7
  split <;> rfl

theorem Move.keeps_streaming (h : Move s t) (hs : Streaming s) : Streaming t := by
  have ho := h.keeps_operation hs.operation
  obtain ⟨hop, hactive, ha, hi, hc⟩ := hs
  cases h with
  | table h => exact ⟨ho, hactive.table h, ha, hi, hc⟩
  | stream h => exact Streaming.stream ⟨hop, hactive, ha, hi, hc⟩ h
  | operation h =>
    have hload : t.store.load.isSome → s.damage.records = [] := by
      intro hl
      cases h with
      | loadTaken _ _ hq => exact hactive.quiet hq
      | loadMoves _ hs => exact hc (by rw [hs]; rfl)
      | resetTaken _ _ _ | loadFails _ => cases hl
      | drop _ | closeTaken _ _ _ | flushTaken _ _ _ _ | flushEnds _ | phase2Ends _ _ => exact hc hl
    refine ⟨ho, ?_, ?_, ?_, ?_⟩ <;> rw [h.frame]
    · exact hactive
    · exact ha
    · exact hi
    · exact hload
  | @closeEnds n hn _ =>
    refine ⟨ho, fun r hr => ?_, ha, hi, hc⟩
    obtain ⟨_, _, hclose, _⟩ := hop
    obtain ⟨v, hv⟩ := hclose n hn
    obtain ⟨u, hu⟩ := hactive r hr
    refine ⟨u, (State.setWindow_other s .unused ?_).trans hu⟩
    rintro hrn
    rw [hrn, hv] at hu
    cases hu
  | phase3Ends _ _ =>
    obtain ⟨h1, h2⟩ := ha.phases4to7
    refine ⟨ho, fun r hr => ?_, h1, h2, fun _ => s.phases4to7_records⟩
    rw [s.phases4to7_records] at hr
    cases hr
  | settings o hl _ _ =>
    obtain ⟨h1, h2⟩ := State.agrees.withSettings (s := s) o (hc (by rw [hl]; rfl))
    exact ⟨ho, hactive, h1, h2, hc⟩
  | events _ | free _ | link _ | merge _ | port _ | host _ => exact ⟨ho, hactive, ha, hi, hc⟩

theorem MarkMove.keeps_streaming (h : MarkMove s t) (hs : Streaming s) : Streaming t := by
  have ho := hs.operation.mark h
  obtain ⟨_, hactive, ha, hi, hc⟩ := hs
  have hload : t.store.load = s.store.load := by
    cases h with
    | writeEnds failed _ hp =>
      obtain ⟨_, hl⟩ := s.endProgramming_programming _ failed
      rw [hp] at hl
      exact hl
    | _ => rfl
  have hclear : t.store.load.isSome → s.damage.records = [] := fun h => hc (hload ▸ h)
  refine ⟨ho, ?_, ?_, ?_, ?_⟩ <;> rw [h.frame]
  · exact hactive
  · exact ha
  · exact hi
  · exact hclear

theorem Streaming.moves (hs : Streaming s) (h : Moves s t) : Streaming t := h.keeps (fun _ _ => Move.keeps_streaming) hs

theorem Streaming.acts (hs : Streaming s) (h : Acts s t) : Streaming t :=
  h.keeps (fun _ _ => MarkMove.keeps_streaming) (fun _ _ => Move.keeps_streaming) hs

theorem StreamSound.restart (s : State) (asel : Bool) : StreamSound (s.restart asel) :=
  ⟨⟨fun _ => rfl, fun _ => rfl⟩, nofun, nofun, nofun, ⟨nofun, nofun⟩, rfl, ⟨nofun, nofun⟩, fun _ => rfl⟩

/-- The windows of sound records are ACTIVE. -/
theorem DamageSound.active (h : DamageSound s) : s.recordsActive := by
  intro r hr
  obtain ⟨v, hv, _⟩ := h.2.1 r hr
  exact ⟨v, Window.active?_eq_some.mp hv⟩

theorem Streaming.of_sound (ho : OperationSound s) (hd : DamageSound s) (hs : StreamSound s) : Streaming s := by
  obtain ⟨ha, hi, hc⟩ := StreamSound_iff.mp hs
  exact ⟨ho, hd.active, ha, hi, hc⟩

/-- Settles O59. -/
theorem streamerStaysSound : Obligations.StreamerStaysSound := by
  intro s t ho hd hs h
  have hall : Streaming { s with pending := s.pending.tail } := .of_sound ho hd hs
  cases step_reaches h with
  | acts hu => exact (hall.acts hu).sound
  | replied d hu =>
    have := (hall.acts hu).sound
    exact this
  | armed k => exact hs
  | restarted asel => exact StreamSound.restart _ asel
  | @loaded kind image hl ha =>
    obtain ⟨u, w, hu, _, _, _, _, _, _, hw, heq⟩ := loaded_cases hl ha
    obtain ⟨_, _, hagrees, hidle, _⟩ := hall.moves hu
    obtain ⟨ws, ev, rfl⟩ := hw.frame
    obtain ⟨r, ev', heq'⟩ := State.endLoad_eq { u with table := { u.table with windows := ws }, events := ev } kind image
    rw [heq, heq']
    exact StreamSound_iff.mpr ⟨hagrees, hidle, nofun⟩

end Sys2Proof.Machine
end


section
/-!
PROOF. The decode of a host address (R37 to R39), where its pixels lie in their window, and the run of a write beat (R77).
-/

namespace Sys2Proof.Machine

variable {s t : State}

theorem Rect.within_iff {r : Rect} {width height : Nat} : r.within width height = true
    ↔ r.x0 ≤ r.x1 ∧ r.x1 < width ∧ r.y0 ≤ r.y1 ∧ r.y1 < height := by
  simp [Rect.within, and_assoc]

/-! ### The window that claims an address (R37) -/

theorem Table.claiming_some {b : Table} {values : Window → Option WindowValues} {a : Nat} {n : Fin 8} {v : WindowValues}
    (h : b.claiming values a = some (n, v)) : values b.windows[n] = some v ∧ v.claims a = true := by
  obtain ⟨m, _, hm⟩ := List.exists_of_findSome?_eq_some h
  obtain ⟨u, hu, heq⟩ := Option.map_eq_some_iff.mp hm
  obtain ⟨rfl, rfl⟩ := Prod.mk.injEq .. ▸ heq
  exact Option.filter_eq_some_iff.mp hu

theorem Table.claiming_none {b : Table} {values : Window → Option WindowValues} {a : Nat} :
    b.claiming values a = none ↔ ∀ n : Fin 8, ∀ v ∈ values b.windows[n], v.claims a = false := by
  unfold Table.claiming
  rw [List.findSome?_eq_none_iff]
  have hall : ∀ n : Fin 8, n ∈ allWindows := by decide
  constructor
  · intro h n v hv
    have := h n (hall n)
    rw [Option.map_eq_none_iff, Option.filter_eq_none_iff] at this
    simpa using this v hv
  · intro h n _
    rw [Option.map_eq_none_iff, Option.filter_eq_none_iff]
    intro v hv
    simp [h n v hv]

/-- A beat that carries pixels is one of an ACTIVE window, at a place below its pixel bytes (R38, R39). -/
theorem State.decode_pixels {kind : RequestKind} {a : Nat} {c : Carried} (h : s.decode kind a = .pixels c) :
    s.window c.window = .active c.values ∧ c.values.claims a = true ∧ a - c.values.hostBase < c.values.pixelBytes
      ∧ c.x = (a - c.values.hostBase) / c.values.hostFormat.bytes % c.values.width
      ∧ c.y = (a - c.values.hostBase) / c.values.hostFormat.bytes / c.values.width := by
  unfold State.decode at h
  cases hc : s.table.claiming Window.active? a with
  | none =>
    rw [hc] at h
    simp only at h
    split at h
    · cases h
    · split at h <;> cases h
  | some p =>
    obtain ⟨n, v⟩ := p
    rw [hc] at h
    simp only [decodeIn] at h
    obtain ⟨hv, ha⟩ := Table.claiming_some hc
    split at h
    · cases h
    · split at h
      · cases h
      · split at h
        · cases h
        · rename_i hlt
          cases h
          exact ⟨Window.active?_eq_some.mp hv, ha, Nat.lt_of_not_le hlt, rfl, rfl⟩

/-- A beat that goes by the windows is one of memory (R37). -/
theorem State.decode_bypass {kind : RequestKind} {a : Nat} (h : s.decode kind a = .bypass) : a < s.port.memSize.bytes := by
  unfold State.decode at h
  split at h
  · simp only [decodeIn] at h
    split at h
    · cases h
    · split at h
      · cases h
      · split at h <;> cases h
  · split at h
    · cases h
    · split at h
      · assumption
      · cases h

/-! ### The pixels of a beat (R1, R39) -/

/-- The pixels of a beat fill its four bytes. -/
theorem HostFormat.perBeat_bytes (f : HostFormat) : f.perBeat * f.bytes = 4 := by cases f <;> rfl

/-- A window's width is a whole number of beats (R19). -/
theorem WindowValues.perBeat_dvd_width {v : WindowValues} (h : v.inRange = true) : v.hostFormat.perBeat ∣ v.width := by
  have h4 := v.row_bytes_of_inRange h
  rw [← v.hostFormat.perBeat_bytes] at h4
  exact Nat.dvd_of_mul_dvd_mul_right v.hostFormat.bytes_pos h4

/-- The host base of a window is a word address (R19). -/
theorem WindowValues.hostBase_mod_of_inRange {v : WindowValues} (h : v.inRange = true) : v.hostBase % 4 = 0 := by
  simp only [WindowValues.inRange, Bool.and_eq_true, beq_iff_eq] at h
  omega

/-- Whole beats of offset are whole pixels, in whole beats. -/
theorem HostFormat.perBeat_dvd_div (f : HostFormat) {o : Nat} (h : 4 ∣ o) : f.perBeat ∣ o / f.bytes := by
  obtain ⟨k, rfl⟩ := h
  refine ⟨k, ?_⟩
  rw [← f.perBeat_bytes, Nat.mul_right_comm, Nat.mul_div_cancel _ f.bytes_pos]

/-- The pixels of a decoded beat of a word address lie in one row of the window (R39). -/
theorem State.decode_place {kind : RequestKind} {a : Nat} {c : Carried} (h : s.decode kind a = .pixels c)
    (hv : c.values.inRange = true) (ha : a % 4 = 0) :
    c.x + c.values.hostFormat.perBeat ≤ c.values.width ∧ c.y < c.values.height := by
  obtain ⟨_, _, hlt, hx, hy⟩ := State.decode_pixels h
  obtain ⟨hw, _⟩ := c.values.size_of_inRange hv
  have hb := WindowValues.hostBase_mod_of_inRange hv
  have hdvd := c.values.hostFormat.perBeat_dvd_div (o := a - c.values.hostBase) (by omega)
  have hwidth := WindowValues.perBeat_dvd_width hv
  constructor
  · have hxdvd : c.values.hostFormat.perBeat ∣ c.x := by
      rw [hx]
      exact (Nat.dvd_mod_iff hwidth).mpr hdvd
    have hlt : c.x < c.values.width := by
      rw [hx]
      exact Nat.mod_lt _ hw
    obtain ⟨i, hi⟩ := hxdvd
    obtain ⟨j, hj⟩ := hwidth
    rw [hi, hj] at hlt ⊢
    have hij : i + 1 ≤ j := Nat.lt_of_mul_lt_mul_left hlt
    calc c.values.hostFormat.perBeat * i + c.values.hostFormat.perBeat
        = c.values.hostFormat.perBeat * (i + 1) := by ring
      _ ≤ c.values.hostFormat.perBeat * j := Nat.mul_le_mul_left _ hij
  · rw [hy, Nat.div_div_eq_div_mul, Nat.div_lt_iff_lt_mul (Nat.mul_pos c.values.hostFormat.bytes_pos hw)]
    calc a - c.values.hostBase < c.values.pixelBytes := hlt
      _ = c.values.height * (c.values.hostFormat.bytes * c.values.width) := by
        unfold WindowValues.pixelBytes
        ring

/-! ### The applied pixels of a write beat (R149) -/

theorem Carried.mem_applied {c : Carried} {b : WriteBeat} {k : Nat} (h : k ∈ c.applied b) : k < c.values.hostFormat.perBeat :=
  List.mem_range.mp (List.mem_of_mem_filter h)

theorem Carried.applied_pairwise (c : Carried) (b : WriteBeat) : (c.applied b).Pairwise (· < ·) :=
  List.pairwise_lt_range.filter _

/-- The lowest and the highest applied pixel. -/
theorem Carried.applied_ends {c : Carried} {b : WriteBeat} (h : c.applied b ≠ []) :
    (c.applied b).headD 0 ∈ c.applied b ∧ (c.applied b).getLastD 0 ∈ c.applied b
      ∧ ∀ k ∈ c.applied b, (c.applied b).headD 0 ≤ k ∧ k ≤ (c.applied b).getLastD 0 := by
  have hp := c.applied_pairwise b
  generalize c.applied b = ks at *
  cases ks with
  | nil => exact absurd rfl h
  | cons k ks =>
    have hlast : (k :: ks).getLastD 0 = (k :: ks).getLast h := by
      rw [List.getLastD_eq_getLast?, List.getLast?_eq_some_getLast h]
      rfl
    refine ⟨by simp, by rw [hlast]; exact List.getLast_mem h, fun j hj => ⟨?_, ?_⟩⟩
    · rcases List.mem_cons.mp hj with rfl | hj
      · exact le_rfl
      · exact (List.rel_of_pairwise_cons hp hj).le
    · rw [hlast]
      exact (hp.imp Nat.le_of_lt).rel_getLast hj

/-- A beat that hands over lanes has applied pixels. -/
theorem Carried.applied_of_lanes {c : Carried} {b : WriteBeat} (h : c.lanes b ≠ []) : c.applied b ≠ [] := by
  intro hn
  exact h (by rw [Carried.lanes, hn]; rfl)

/-- The run of a decoded write beat lies in its window (R77). -/
theorem State.decode_run {a : Nat} {c : Carried} {b : WriteBeat} (h : s.decode .write a = .pixels c)
    (hv : c.values.inRange = true) (ha : a % 4 = 0) (hl : c.lanes b ≠ []) :
    (c.run b).within c.values.width c.values.height = true := by
  obtain ⟨hx, hy⟩ := State.decode_place h hv ha
  obtain ⟨hhead, hlast, hall⟩ := Carried.applied_ends (Carried.applied_of_lanes hl)
  have h1 := Carried.mem_applied hlast
  have h2 := (hall _ hhead).2
  rw [Rect.within_iff]
  exact ⟨by simp only [Carried.run]; omega, by simp only [Carried.run]; omega, le_rfl, hy⟩

/-- The beats of a sound request are at word addresses (R142). -/
theorem HostRecord.beat_aligned {r : HostRecord} (h : r.sound) (k : Nat) : (r.address + 4 * k) % 4 = 0 := by
  obtain ⟨_, _, _, ha, _⟩ := h
  omega

end Sys2Proof.Machine
end


section
/-!
PROOF. The damage list stays sound over every step: its length, the windows and rectangles of its records, its touch order, and
the run of a decoded write beat (R74, R76, R77).
-/

namespace Sys2Proof.Machine

variable {s t : State}

/-! ### Rectangles within a window -/

theorem Rect.within_join {r q : Rect} {width height : Nat} (hr : r.within width height = true)
    (hq : q.within width height = true) : (r.join q).within width height = true := by
  rw [Rect.within_iff] at *
  simp only [Rect.join]
  omega

theorem WindowValues.full_within {v : WindowValues} (h : v.inRange = true) : v.full.within v.width v.height = true := by
  obtain ⟨hw, hh⟩ := v.size_of_inRange h
  rw [Rect.within_iff]
  simp only [WindowValues.full]
  omega

/-! ### The touch order (R76) -/

/-- No two records share a place of the touch order, and the next stamp is newer than all. -/
def DamageList.touches (l : DamageList) : Prop := (l.records.map Record.touch).Nodup ∧ ∀ r ∈ l.records, r.touch < l.nextTouch

section
variable {l : DamageList} {before after rs : List Record} {r : Record}

/-- Records left out leave the order sound. -/
theorem DamageList.touches.sublist (h : l.touches) (hs : rs.Sublist l.records) {k : Nat} (hk : l.nextTouch ≤ k) :
    DamageList.touches ⟨rs, k⟩ := by
  obtain ⟨hn, hlt⟩ := h
  exact ⟨hn.sublist (hs.map _), fun r hr => (hlt r (hs.subset hr)).trans_le hk⟩

/-- A record of the next stamp, in any place. -/
theorem DamageList.touches.insert (h : DamageList.touches ⟨before ++ after, r.touch⟩) :
    DamageList.touches ⟨before ++ r :: after, r.touch + 1⟩ := by
  obtain ⟨hn, hlt⟩ := h
  constructor
  · rw [List.map_append, List.map_cons, List.nodup_middle, ← List.map_append, List.nodup_cons]
    refine ⟨fun hm => ?_, hn⟩
    obtain ⟨q, hq, heq⟩ := List.mem_map.mp hm
    exact absurd heq (Nat.ne_of_lt (hlt q hq))
  · intro q hq
    rcases List.mem_append.mp hq with hq | hq
    · exact Nat.lt_succ_of_lt (hlt q (List.mem_append_left _ hq))
    · rcases List.mem_cons.mp hq with rfl | hq
      · exact Nat.lt_succ_self _
      · exact Nat.lt_succ_of_lt (hlt q (List.mem_append_right _ hq))

theorem DamageList.touches.replace {p : Record → Bool} {new : Record} (h : l.touches) (hnew : new.touch = l.nextTouch) :
    DamageList.touches ⟨replaceAll p new l.records, l.nextTouch + 1⟩ := by
  rcases replaceAll_split p new l.records with ⟨_, heq⟩ | ⟨before, r, after, hl, _, _, heq⟩ <;> rw [heq]
  · exact h.sublist (List.Sublist.refl _) (Nat.le_succ _)
  · rw [← hnew]
    refine DamageList.touches.insert (h.sublist ?_ hnew.ge)
    rw [hl]
    exact (List.Sublist.refl before).append (List.filter_sublist.trans (List.sublist_cons_self _ _))

theorem DamageList.touches.append (h : l.touches) (w : Fin 8) (b : Rect) : (l.append w b).touches := by
  have := DamageList.touches.insert (r := ⟨w, b, .pending, false, l.nextTouch⟩) (before := l.records) (after := [])
    (by simpa using h)
  exact this

theorem DamageList.touches.grow {w : Fin 8} {q : Record} (h : l.touches) (hq : l.tail? w = some q) (b : Rect) :
    (l.grow q b).touches := by
  obtain ⟨before, after, h1, h2⟩ := DamageList.grow_split (DamageList.tail?_some hq).1 b
  rw [h2]
  refine DamageList.touches.insert (r := { q with rect := q.rect.join b, touch := l.nextTouch }) (h.sublist ?_ le_rfl)
  rw [h1]
  exact (List.Sublist.refl before).append (List.sublist_cons_self _ _)

/-- An insertion keeps the touch order sound. -/
theorem DamageList.touches.inserted (h : l.touches) (w : Fin 8) (b : Rect) : (l.insert w b).1.touches := by
  rcases l.insert_cases w b with heq | ⟨q, hq, _, heq⟩ | ⟨_, heq⟩ | ⟨_, heq⟩ | heq <;> rw [heq]
  · exact h
  · exact h.grow hq b
  · exact h.append w b
  · exact h.replace rfl
  · exact DamageList.touches.append (l := l.collapse _ _) (h.replace rfl) w b

end

theorem ListMove.touches {l : DamageList} (h : ListMove s l) (hs : s.damage.touches) : l.touches := by
  cases h with
  | same => exact hs
  | insert _ _ _ => exact hs.inserted _ _
  | replace _ _ _ => exact hs.replace rfl
  | remove p => exact hs.sublist List.filter_sublist le_rfl
  | mark =>
    obtain ⟨hn, hlt⟩ := hs
    have hmap : s.damage.markPending.records.map Record.touch = s.damage.records.map Record.touch := by
      unfold DamageList.markPending
      rw [List.map_map]
      refine List.map_congr_left fun r _ => ?_
      simp only [Function.comp]
      split <;> rfl
    refine ⟨hmap ▸ hn, fun r hr => ?_⟩
    obtain ⟨q, hq, heq⟩ := List.mem_map.mp (hmap ▸ List.mem_map_of_mem (f := Record.touch) hr)
    exact heq ▸ hlt q hq

theorem State.sameRecords.touches (h : s.sameRecords t) (hs : s.damage.touches) : t.damage.touches := by
  obtain ⟨hn, hlt⟩ := hs
  have hmap : t.damage.records.map Record.touch = s.damage.records.map Record.touch := by
    have := congrArg (List.map Record.touch) h.1
    simp only [List.map_map] at this
    exact this
  refine ⟨hmap ▸ hn, fun r hr => ?_⟩
  obtain ⟨q, hq, heq⟩ := List.mem_map.mp (hmap ▸ List.mem_map_of_mem (f := Record.touch) hr)
  rw [h.2]
  exact heq ▸ hlt q hq

/-! ### The length (R74) -/

section
variable {l : DamageList}

/-- A record is PENDING of its own window, or STREAMING. -/
theorem DamageList.length_eq_sum (l : DamageList) : l.records.length
    = (l.records.filter Record.isStreaming).length + ∑ w : Fin 8, (l.pendingOf w).length := by
  unfold DamageList.pendingOf
  induction l.records with
  | nil => simp
  | cons r rs ih =>
    have hsum : ∑ w : Fin 8, ((r :: rs).filter (Record.pendingOf w)).length
        = (if r.isStreaming then 0 else 1) + ∑ w : Fin 8, (rs.filter (Record.pendingOf w)).length := by
      have hcons : ∀ w : Fin 8, ((r :: rs).filter (Record.pendingOf w)).length
          = (if r.pendingOf w then 1 else 0) + (rs.filter (Record.pendingOf w)).length := fun w => by
        rw [List.filter_cons]
        split
        · rw [List.length_cons, Nat.add_comm]
        · rw [Nat.zero_add]
      simp only [hcons, Finset.sum_add_distrib]
      congr 1
      cases hs : r.state with
      | streaming => simp [Record.pendingOf, Record.isStreaming, hs]
      | pending => simp [Record.pendingOf, Record.isStreaming, hs]
    rw [hsum, List.length_cons, ih]
    cases hs : r.isStreaming with
    | true =>
      rw [List.filter_cons_of_pos hs, List.length_cons, if_pos rfl]
      omega
    | false =>
      rw [List.filter_cons_of_neg (by simp [hs]), if_neg (by decide)]
      omega

/-- The busiest window has the most PENDING records (R82). -/
theorem foldl_busiest (l : DamageList) (ws : List (Fin 8)) (b : Fin 8) :
    let m := ws.foldl (fun b w => if (l.pendingOf b).length < (l.pendingOf w).length then w else b) b
    (l.pendingOf b).length ≤ (l.pendingOf m).length ∧ ∀ w ∈ ws, (l.pendingOf w).length ≤ (l.pendingOf m).length := by
  induction ws generalizing b with
  | nil => exact ⟨le_rfl, nofun⟩
  | cons w ws ih =>
    simp only [List.foldl_cons]
    split
    · rename_i hlt
      obtain ⟨h1, h2⟩ := ih w
      exact ⟨hlt.le.trans h1, fun u hu => by
        rcases List.mem_cons.mp hu with rfl | hu
        · exact h1
        · exact h2 u hu⟩
    · rename_i hge
      obtain ⟨h1, h2⟩ := ih b
      exact ⟨h1, fun u hu => by
        rcases List.mem_cons.mp hu with rfl | hu
        · exact (Nat.le_of_not_lt hge).trans h1
        · exact h2 u hu⟩

theorem DamageList.le_busiest (l : DamageList) (w : Fin 8) : (l.pendingOf w).length ≤ (l.pendingOf l.busiest).length :=
  (foldl_busiest l allWindows 0).2 w (by revert w; decide)

/-- A full list with one STREAMING record at most has a window with two PENDING records. -/
theorem DamageList.busiest_two (hl : 24 ≤ l.records.length) (hs : (l.records.filter Record.isStreaming).length ≤ 1) :
    2 ≤ (l.pendingOf l.busiest).length := by
  by_contra hc
  have hsum : ∑ w : Fin 8, (l.pendingOf w).length ≤ ∑ _w : Fin 8, 1 :=
    Finset.sum_le_sum fun w _ => (l.le_busiest w).trans (by omega)
  have := l.length_eq_sum
  simp at hsum
  omega

theorem DamageList.collapse_length {w : Fin 8} {b : Rect} (h : 1 ≤ (l.pendingOf w).length) :
    (l.collapse w b).records.length + (l.pendingOf w).length = l.records.length + 1 := replaceAll_length h

/-- An insertion leaves at most 24 records (R80 to R82). -/
theorem DamageList.insert_length {w : Fin 8} {b : Rect} (hl : l.records.length ≤ 24)
    (hs : (l.records.filter Record.isStreaming).length ≤ 1) : (l.insert w b).1.records.length ≤ 24 := by
  unfold DamageList.insert
  split
  · exact hl
  · split
    · show (modifyFirst _ _ _).length ≤ 24
      rwa [modifyFirst_length]
    · split
      · rename_i hlt
        simp only [DamageList.append, List.length_append, List.length_singleton]
        exact hlt
      · rename_i hfull
        have hfull : 24 ≤ l.records.length := Nat.le_of_not_lt hfull
        split
        · exact replaceAll_length_le.trans hl
        · have h2 := DamageList.busiest_two hfull hs
          have h3 := DamageList.collapse_length (l := l) (w := l.busiest) (b := boundingBoxOf (l.pendingOf l.busiest)) (by omega)
          simp only [DamageList.append, List.length_append, List.length_singleton]
          omega

end

/-- At most one record is STREAMING (R97). -/
theorem State.agrees.streaming_le (h : s.agrees) : (s.damage.records.filter Record.isStreaming).length ≤ 1 := by
  obtain ⟨_, _, _, _, _, h6, _⟩ := h
  have := congrArg List.length (show _ = _ from h6)
  rw [List.length_map] at this
  rw [this]
  cases s.streamer.region <;> simp

theorem ListMove.length {l : DamageList} (h : ListMove s l) (ha : s.agrees) (hs : s.damage.records.length ≤ 24) :
    l.records.length ≤ 24 := by
  cases h with
  | same => exact hs
  | insert _ _ _ => exact DamageList.insert_length hs ha.streaming_le
  | replace _ _ _ => exact replaceAll_length_le.trans hs
  | remove p => exact (List.length_filter_le _ _).trans hs
  | mark =>
    show (List.map _ _).length ≤ 24
    rwa [List.length_map]

theorem State.sameRecords.length (h : s.sameRecords t) : t.damage.records.length = s.damage.records.length := by
  have := congrArg List.length h.1
  simpa using this

/-! ### The decoded write beat (R29, R77) -/

/-- The run of the beat in action lies within its window, which is in use with the size it was decoded with. -/
def State.runSound (s : State) : Prop :=
  ∀ c lanes d run, s.host.action = some (.write c lanes (some (d, run))) →
    c = .window d.window ∧ ∃ v ∈ (s.window d.window).values?,
      v.width = d.values.width ∧ v.height = d.values.height ∧ run.within v.width v.height = true

/-- The records are within their windows. -/
def State.recordsWithin (s : State) : Prop :=
  ∀ r ∈ s.damage.records, ∃ v ∈ (s.window r.window).active?, r.rect.within v.width v.height = true

theorem DamageSound_iff : DamageSound s ↔ s.damage.records.length ≤ 24 ∧ s.recordsWithin ∧ s.damage.touches ∧ s.runSound := by
  unfold DamageSound State.recordsWithin DamageList.touches State.runSound
  refine and_congr_right fun _ => and_congr_right fun _ => and_congr_right fun _ => ?_
  split
  · rename_i c lanes d run heq
    constructor
    · rintro h _ _ _ _ h'
      cases heq.symm.trans h'
      exact h
    · exact fun h => h _ _ _ _ heq
  · rename_i c lanes run hne heq
    refine ⟨fun _ c' l' d r h' => ?_, fun _ => trivial⟩
    cases heq.symm.trans h'
    exact absurd rfl (hne d r)
  · rename_i heq
    exact ⟨fun _ _ _ _ _ h' => absurd (heq.symm.trans h') nofun, fun _ => trivial⟩
  · rename_i heq
    exact ⟨fun _ _ _ _ _ h' => absurd (heq.symm.trans h') nofun, fun _ => trivial⟩

theorem State.runSound.of_none (h : ∀ c lanes d run, s.host.action ≠ some (.write c lanes (some (d, run)))) : s.runSound :=
  fun c lanes d run ha => absurd ha (h c lanes d run)

/-- Without a write beat there is no run. -/
theorem State.runSound.of_writeBeat (h : s.host.writeBeat = false) : s.runSound :=
  .of_none fun c lanes d run ha => by simp [HostPort.writeBeat, ha] at h

/-- The windows in use that keep their size keep the run. -/
theorem State.runSound.windows (hs : s.runSound) (ha : t.host.action = s.host.action)
    (hw : ∀ c lanes d run, s.host.action = some (.write c lanes (some (d, run))) → ∀ v ∈ (s.window d.window).values?,
      ∃ v' ∈ (t.window d.window).values?, v'.width = v.width ∧ v'.height = v.height) : t.runSound := by
  intro c lanes d run h
  rw [ha] at h
  obtain ⟨hc, v, hv, h1, h2, h3⟩ := hs c lanes d run h
  obtain ⟨v', hv', hwidth, hheight⟩ := hw c lanes d run h v hv
  exact ⟨hc, v', hv', hwidth.trans h1, hheight.trans h2, by rw [hwidth, hheight]; exact h3⟩

/-- A decoded beat has its run in its window (R77). -/
theorem State.runSound.host {p : HostPort} (hs : s.runSound) (h : HostMove s p) (ht : TableSound s) (hh : HostSound s) :
    State.runSound { s with host := p } := by
  cases h with
  | finish o => exact .of_writeBeat rfl
  | @decode r _ _ hr =>
    have hsound : r.sound := hh.2.1 r (List.mem_of_find?_eq_some hr)
    rcases s.decodeBeat_cases r with ⟨o, heq⟩ | ⟨x, heq, hx⟩ <;> rw [heq]
    · exact .of_writeBeat rfl
    · cases hx with
      | read c words => exact .of_writeBeat rfl
      | bypass b _ =>
        refine .of_none fun c lanes d run h => ?_
        have h := (BeatAction.write.inj (Option.some.inj h)).2.2
        cases h
      | @window c b hd hl =>
        intro c' lanes d run h
        obtain ⟨rfl, rfl, hrun⟩ := BeatAction.write.inj (Option.some.inj h)
        obtain ⟨rfl, rfl⟩ := Prod.mk.inj (Option.some.inj hrun)
        obtain ⟨hw, _⟩ := State.decode_pixels hd
        have hv : c.values ∈ (s.window c.window).values? := by rw [hw]; rfl
        exact ⟨rfl, c.values, hv, rfl, rfl,
          State.decode_run hd (ht.1 _ _ hv).1 (HostRecord.beat_aligned hsound _) hl⟩
  | join _ _ => exact .of_writeBeat rfl
  | enqueue _ _ _ | answer _ _ _ => exact hs

theorem State.runSound.table {b : Table} (hs : s.runSound) (h : TableMove s b) : State.runSound { s with table := b } := by
  refine hs.windows rfl fun c lanes d run ha v hv => ?_
  have same {n : Fin 8} {w : Window} (hn : d.window ≠ n) :
      ∃ v' ∈ ((s.setWindow n w).window d.window).values?, v'.width = v.width ∧ v'.height = v.height :=
    ⟨v, by rw [State.setWindow_other s w hn]; exact hv, rfl, rfl⟩
  cases h with
  | stage _ => exact ⟨v, hv, rfl, rfl⟩
  | @opens n _ _ _ _ hw _ =>
    refine same ?_
    rintro hn
    rw [hn, hw] at hv
    cases hv
  | @change n u u' hw hk =>
    by_cases hn : d.window = n
    · rw [hn, hw] at hv
      cases hv
      refine ⟨u', ?_, by rw [hk.1], by rw [hk.1]⟩
      show u' ∈ ((s.setWindow n (.active u')).window d.window).values?
      rw [hn, State.setWindow_same]
      rfl
    · exact same hn
  | @drain n u hw _ =>
    by_cases hn : d.window = n
    · rw [hn, hw] at hv
      cases hv
      refine ⟨v, ?_, rfl, rfl⟩
      show v ∈ ((s.setWindow n (.draining v)).window d.window).values?
      rw [hn, State.setWindow_same]
      rfl
    · exact same hn

/-! ### Every move -/

/-- What the damage list's soundness needs to go over every move. -/
structure Damaging (s : State) : Prop where
  table : TableSound s
  host : HostSound s
  streaming : Streaming s
  damage : DamageSound s

theorem State.recordsWithin.table {b : Table} (hs : s.recordsWithin) (h : TableMove s b) :
    State.recordsWithin { s with table := b } := by
  intro r hr
  obtain ⟨v, hv, hin⟩ := hs r hr
  have same {n : Fin 8} {w : Window} (hn : r.window ≠ n) :
      ∃ v ∈ ((s.setWindow n w).window r.window).active?, r.rect.within v.width v.height = true :=
    ⟨v, by rw [State.setWindow_other s w hn]; exact hv, hin⟩
  cases h with
  | stage _ => exact ⟨v, hv, hin⟩
  | @opens n _ _ _ _ hw _ =>
    refine same ?_
    rintro hn
    rw [hn, hw] at hv
    cases hv
  | @change n u u' hw hk =>
    by_cases hn : r.window = n
    · rw [hn, hw] at hv
      cases hv
      refine ⟨u', ?_, by rw [hk.1]; exact hin⟩
      show u' ∈ ((s.setWindow n (.active u')).window r.window).active?
      rw [hn, State.setWindow_same]
      rfl
    · exact same hn
  | drain _ hn => exact same (hn r hr)

/-- What a command inserts lies within its window. -/
theorem State.admits_within {w : Fin 8} {v : WindowValues} {b : Rect} (hw : s.window w = .active v) (hq : s.admits w v b)
    (hv : v.inRange = true) (hr : s.runSound) : b.within v.width v.height = true := by
  rcases hq with hq | rfl | ⟨c, lanes, d, ha, rfl⟩
  · exact hq
  · exact WindowValues.full_within hv
  · obtain ⟨_, u, hu, _, _, hin⟩ := hr c lanes d b ha
    rw [hw] at hu
    cases hu
    exact hin

theorem Damaging.stream (hs : Damaging s) (h : StreamMove s t) : DamageSound t := by
  obtain ⟨htab, _, hst, hd⟩ := hs
  obtain ⟨hlen, hwithin, htouch, hrun⟩ := DamageSound_iff.mp hd
  obtain ⟨l, hl, hsame⟩ := h.list hst.agrees
  have hf := h.frame.1
  have hwindow (n : Fin 8) : t.window n = s.window n := by
    unfold State.window
    rw [hf]
  refine DamageSound_iff.mpr ⟨?_, fun r hr => ?_, hsame.touches (hl.touches htouch), ?_⟩
  · rw [hsame.length]
    exact hl.length hst.agrees hlen
  · have hok := hl.ok (ok := fun w b => ∃ v ∈ (s.window w).active?, b.within v.width v.height = true) ?_ ?_ hwithin
    · rw [hwindow]
      exact hsame.ok (ok := fun w b => ∃ v ∈ (s.window w).active?, b.within v.width v.height = true) hok r hr
    · rintro w a b ⟨v, hv, ha⟩ ⟨u, hu, hb⟩
      cases Option.mem_unique hv hu
      exact ⟨v, hv, Rect.within_join ha hb⟩
    · intro w v b hw hq
      have hv : v ∈ (s.window w).values? := by rw [hw]; rfl
      exact ⟨v, by rw [hw]; rfl, State.admits_within hw hq (htab.1 w v hv).1 hrun⟩
  · exact hrun.windows (by rw [hf]) fun _ _ _ _ _ v hv => ⟨v, by rw [hwindow]; exact hv, rfl, rfl⟩

theorem Move.keeps_damaging (h : Move s t) (hs : Damaging s) : Damaging t := by
  have htab := h.keeps_table hs.table
  have hhost := h.keeps_host hs.host
  have hst := h.keeps_streaming hs.streaming
  refine ⟨htab, hhost, hst, ?_⟩
  cases h with
  | stream h => exact hs.stream h
  | operation h => rw [h.frame]; exact hs.damage
  | host h =>
    obtain ⟨h1, h2, h3, h4⟩ := DamageSound_iff.mp hs.damage
    exact DamageSound_iff.mpr ⟨h1, h2, h3, h4.host h hs.table hs.host⟩
  | table h =>
    obtain ⟨h1, h2, h3, h4⟩ := DamageSound_iff.mp hs.damage
    exact DamageSound_iff.mpr ⟨h1, h2.table h, h3, h4.table h⟩
  | @closeEnds n hn hdrain =>
    obtain ⟨h1, h2, h3, h4⟩ := DamageSound_iff.mp hs.damage
    obtain ⟨_, _, hclose, _⟩ := hs.streaming.operation
    obtain ⟨u, hu⟩ := hclose n hn
    refine DamageSound_iff.mpr ⟨h1, fun r hr => ?_, h3, h4.windows rfl fun c lanes d run ha v hv => ?_⟩
    · obtain ⟨v, hv, hin⟩ := h2 r hr
      refine ⟨v, ?_, hin⟩
      show v ∈ ((s.setWindow n .unused).window r.window).active?
      rw [State.setWindow_other]
      · exact hv
      · rintro hrn
        rw [hrn, hu] at hv
        cases hv
    · refine ⟨v, ?_, rfl, rfl⟩
      show v ∈ ((s.setWindow n .unused).window d.window).values?
      rw [State.setWindow_other]
      · exact hv
      · rintro hdn
        obtain ⟨hc, _⟩ := h4 c lanes d run ha
        simp [State.drainComplete, HostPort.writeBeatOf, ha, hc, hdn] at hdrain
  | phase3Ends h3 _ =>
    obtain ⟨_, _, _, _, hquiet, _⟩ := hs.streaming.operation
    have hrec := s.phases4to7_records
    have hwrite : s.phases4to7.host.writeBeat = false := by
      unfold State.phases4to7
      split <;> exact HostPort.writeBeat_of_quiet (hquiet (.inl h3))
    refine DamageSound_iff.mpr ⟨by rw [hrec]; exact Nat.zero_le _, fun r hr => ?_, ⟨?_, fun r hr => ?_⟩, .of_writeBeat hwrite⟩
    · rw [hrec] at hr
      cases hr
    · rw [hrec]
      exact List.nodup_nil
    · rw [hrec] at hr
      cases hr
  | events _ | free _ | link _ | merge _ | port _ | settings _ _ _ _ =>
    obtain ⟨h1, h2, h3, h4⟩ := DamageSound_iff.mp hs.damage
    exact DamageSound_iff.mpr ⟨h1, h2, h3, h4⟩

theorem MarkMove.keeps_damaging (h : MarkMove s t) (hs : Damaging s) : Damaging t := by
  have hst := h.keeps_streaming hs.streaming
  have htab : TableSound t := by rw [h.frame]; exact hs.table
  have hhost : HostSound t := by rw [h.frame]; exact hs.host
  exact ⟨htab, hhost, hst, by rw [h.frame]; exact hs.damage⟩

theorem Damaging.moves (hs : Damaging s) (h : Moves s t) : Damaging t := h.keeps (fun _ _ => Move.keeps_damaging) hs

theorem Damaging.acts (hs : Damaging s) (h : Acts s t) : Damaging t :=
  h.keeps (fun _ _ => MarkMove.keeps_damaging) (fun _ _ => Move.keeps_damaging) hs

/-- An empty list without a write beat is sound over any windows. -/
theorem DamageSound.of_empty (h : s.damage.records = []) (hw : s.host.writeBeat = false) : DamageSound s := by
  refine DamageSound_iff.mpr ⟨by rw [h]; exact Nat.zero_le _, fun r hr => ?_, ⟨by rw [h]; exact List.nodup_nil, fun r hr => ?_⟩,
    .of_writeBeat hw⟩ <;> rw [h] at hr <;> cases hr

/-- Settles O60. -/
theorem damageListStaysSound : Obligations.DamageListStaysSound := by
  intro s t ht hh ho hst hd h
  have hall : Damaging { s with pending := s.pending.tail } := ⟨ht, hh, .of_sound ho hd hst, hd⟩
  cases step_reaches h with
  | acts hu => exact (hall.acts hu).damage
  | replied d hu =>
    have := (hall.acts hu).damage
    exact this
  | armed k => exact hd
  | restarted asel => exact .of_empty rfl rfl
  | @loaded kind image hl ha =>
    obtain ⟨u, w, hu, hstore, _, _, _, _, _, hw, heq⟩ := loaded_cases hl ha
    have hlu := (congrArg ProfileStore.load hstore).trans hl
    obtain ⟨hop, _, _, _, hclear⟩ := (hall.moves hu).streaming
    have hempty := hclear (by rw [hlu]; rfl)
    obtain ⟨_, _, _, _, _, hload⟩ := hop
    rw [hlu] at hload
    obtain ⟨ws, ev, rfl⟩ := hw.frame
    obtain ⟨r, ev', heq'⟩ := State.endLoad_eq { u with table := { u.table with windows := ws }, events := ev } kind image
    rw [heq, heq']
    exact .of_empty hempty hload.2.2

end Sys2Proof.Machine
end


section
/-!
PROOF. The lanes of a word (R46, R48, R51, R58), and the merge queue's soundness under what happens to it (R46, R47, R55).
-/

namespace Sys2Proof.Machine

variable {s t : State}

/-! ### Lanes -/

theorem Lanes.complete_iff {l : Lanes} : l.complete = true ↔ ∀ n : Fin 8, l[n].isSome = true := by
  simp only [Lanes.complete, List.all_eq_true, Vector.mem_toList_iff, Vector.mem_iff_getElem]
  exact ⟨fun h n => h _ ⟨n, n.isLt, rfl⟩, fun h x ⟨i, hi, hx⟩ => hx ▸ h ⟨i, hi⟩⟩

theorem Lanes.someValid_iff {l : Lanes} : l.someValid = true ↔ ∃ n : Fin 8, l[n].isSome = true := by
  simp only [Lanes.someValid, List.any_eq_true, Vector.mem_toList_iff, Vector.mem_iff_getElem]
  exact ⟨fun ⟨x, ⟨i, hi, hx⟩, h⟩ => ⟨⟨i, hi⟩, hx ▸ h⟩, fun ⟨n, h⟩ => ⟨_, ⟨n, n.isLt, rfl⟩, h⟩⟩

/-- Lane n after a fill: the lane where it is valid, else the word's (R58). -/
theorem Lanes.fill_get (l : Lanes) (w : Word) (n : Fin 8) : (l.fill w)[n] = some (l[n].getD (laneOf w n)) := by
  simp only [Lanes.fill, Fin.getElem_fin, Vector.getElem_zipWith]
  congr 2
  match n with
  | 0 | 1 | 2 | 3 | 4 | 5 | 6 | 7 => rfl

theorem Lanes.fill_complete (l : Lanes) (w : Word) : (l.fill w).complete = true :=
  Lanes.complete_iff.mpr fun n => by rw [Lanes.fill_get]; rfl

theorem Lanes.merge_complete {l new : Lanes} (h : l.complete = true) : (l.merge new).complete = true :=
  Lanes.complete_iff.mpr fun n => by
    rw [Lanes.merge_get, Option.isSome_or, Lanes.complete_iff.mp h n, Bool.or_true]

theorem Lanes.merge_someValid {l new : Lanes} (h : l.someValid = true) : (l.merge new).someValid = true := by
  obtain ⟨n, hn⟩ := Lanes.someValid_iff.mp h
  exact Lanes.someValid_iff.mpr ⟨n, by rw [Lanes.merge_get, Option.isSome_or, hn, Bool.or_true]⟩

theorem Lanes.someValid_of_complete {l : Lanes} (h : l.complete = true) : l.someValid = true :=
  Lanes.someValid_iff.mpr ⟨0, Lanes.complete_iff.mp h 0⟩

/-- Lane n of what a lane set gives for a word is that of the last write to it, if there is one (R48). -/
theorem lanesFor_get (lanes : List LaneWrite) (a : Nat) (n : Fin 8) :
    (lanesFor lanes a)[n] = ((lanes.filter fun l => l.word == a && l.lane == n).getLast?).map LaneWrite.bits := by
  suffices ∀ (l : Lanes), (lanes.foldl (fun l k => if k.word = a then l.set k.lane (some k.bits) else l) l)[n]
      = (((lanes.filter fun l => l.word == a && l.lane == n).getLast?).map LaneWrite.bits).or l[n] by
    rw [lanesFor, this]
    simp [Lanes.none]
  induction lanes with
  | nil => intro l; rfl
  | cons k lanes ih =>
    intro l
    rw [List.foldl_cons, ih]
    by_cases hw : k.word = a
    · by_cases hl : k.lane = n
      · rw [List.filter_cons_of_pos (by simp [hw, hl]), if_pos hw]
        subst hl
        cases hf : lanes.filter (fun l => l.word == a && l.lane == k.lane) with
        | nil => simp
        | cons b rest =>
          rw [List.getLast?_cons_cons]
          rw [List.getLast?_eq_some_getLast (List.cons_ne_nil b rest)]
          rfl
      · rw [List.filter_cons_of_neg (by simp [hl]), if_pos hw]
        have hne : k.lane.val ≠ n.val := fun h => hl (Fin.ext h)
        simp [hne]
    · rw [List.filter_cons_of_neg (by simp [hw]), if_neg hw]

/-- A word that a lane set names has a valid lane (R46, R50). -/
theorem lanesFor_someValid {lanes : List LaneWrite} {a : Nat} (h : ∃ l ∈ lanes, l.word = a) :
    (lanesFor lanes a).someValid = true := by
  obtain ⟨l, hl, hw⟩ := h
  refine Lanes.someValid_iff.mpr ⟨l.lane, ?_⟩
  rw [lanesFor_get, Option.isSome_map, List.getLast?_isSome]
  exact List.ne_nil_of_mem (List.mem_filter.mpr ⟨hl, by simp [hw]⟩)

/-! ### Entries -/

/-- The entry has a valid lane, and is complete where its write is presented or granted (R46, R56 to R59). -/
def Entry.sound (e : Entry) : Prop :=
  e.lanes.someValid = true ∧ (e.state = .pendingWrite ∨ e.state = .writing → e.complete = true)

theorem Entry.sound.chosen {e : Entry} (h : e.sound) : e.chosen.sound := by
  refine ⟨h.1, fun hs => ?_⟩
  unfold Entry.chosen at hs
  by_cases hc : e.complete = true
  · exact hc
  · rw [if_neg hc] at hs
    exact absurd hs (by simp)

theorem Entry.mergeLanes_state (e : Entry) (new : Lanes) (g : Bool) : (e.mergeLanes new g).state = e.state
    ∨ (e.state = .fetching ∧ (e.mergeLanes new g).state = .pendingWrite ∧ (e.lanes.merge new).complete = true) := by
  simp only [Entry.mergeLanes]
  split
  · rename_i h
    simp only [Bool.and_eq_true, beq_iff_eq] at h
    exact .inr ⟨h.1.1, rfl, h.1.2⟩
  · exact .inl rfl

theorem Entry.mergeLanes_draining (e : Entry) (new : Lanes) (g : Bool) : (e.mergeLanes new g).draining = e.draining := by
  unfold Entry.draining
  rcases e.mergeLanes_state new g with h | ⟨h1, h2, _⟩
  · rw [h]
  · rw [h1, h2]
    rfl

theorem Entry.sound.merged {e : Entry} (h : e.sound) (new : Lanes) (g : Bool) : (e.mergeLanes new g).sound := by
  refine ⟨Lanes.merge_someValid h.1, fun hs => ?_⟩
  show (e.lanes.merge new).complete = true
  rcases e.mergeLanes_state new g with heq | ⟨_, _, hc⟩
  · rw [heq] at hs
    exact Lanes.merge_complete (h.2 hs)
  · exact hc

theorem Entry.sound.fetched (e : Entry) (w : Word) : (e.fetchAnswer w).sound :=
  ⟨Lanes.someValid_of_complete (e.lanes.fill_complete w), fun _ => e.lanes.fill_complete w⟩

theorem Entry.sound.retried {e : Entry} (h : e.sound) : e.firstTimeout.sound := by
  refine ⟨h.1, fun hs => ?_⟩
  show e.complete = true
  unfold Entry.firstTimeout at hs
  by_cases hc : (e.state == .fetching && e.complete) = true
  · exact (Bool.and_eq_true_iff.mp hc).2
  · rw [if_neg hc] at hs
    exact h.2 hs

/-- The first timeout leaves the drain entry the drain entry (R61). -/
theorem Entry.firstTimeout_draining (e : Entry) : e.firstTimeout.draining = e.draining := by
  unfold Entry.firstTimeout Entry.draining
  by_cases hc : (e.state == .fetching && e.complete) = true
  · have := (Bool.and_eq_true_iff.mp hc).1
    rw [if_pos hc, show e.state = .fetching by simpa using this]
    rfl
  · rw [if_neg hc]

/-! ### The queue -/

/-- The queue is sound (R46, R47, R55). -/
def MergeQueue.sound (q : MergeQueue) : Prop :=
  q.entries.length ≤ 16 ∧ (q.entries.map Entry.word).Nodup ∧ (q.entries.filter Entry.draining).length ≤ 1
  ∧ ∀ e ∈ q.entries, e.sound

theorem MergeSound_iff : MergeSound s ↔ s.merge.sound := by
  unfold MergeSound MergeQueue.sound Entry.sound
  exact ⟨fun ⟨h1, h2, h3, h4, h5⟩ => ⟨h1, h2, h3, fun e he => ⟨h4 e he, h5 e he⟩⟩,
    fun ⟨h1, h2, h3, h⟩ => ⟨h1, h2, h3, fun e he => (h e he).1, fun e he => (h e he).2⟩⟩

section
variable {q : MergeQueue} {f : Entry → Entry} {p : Entry → Bool}

/-- The first entry of a kind changed: the words stay, and the changed entry is sound. -/
theorem MergeQueue.sound.modify (h : q.sound) (hw : ∀ e, (f e).word = e.word)
    (hs : ∀ e, q.entries.find? p = some e → e.sound → (f e).sound)
    (hd : ((modifyFirst p f q.entries).filter Entry.draining).length ≤ 1) :
    MergeQueue.sound { q with entries := modifyFirst p f q.entries } := by
  obtain ⟨h1, h2, _, h4⟩ := h
  refine ⟨by simpa using h1, ?_, hd, fun e he => ?_⟩
  · show ((modifyFirst p f q.entries).map Entry.word).Nodup
    rw [modifyFirst_map Entry.word hw]
    exact h2
  · have he : e ∈ modifyFirst p f q.entries := he
    cases hf : q.entries.find? p with
    | none =>
      rw [modifyFirst_none hf] at he
      exact h4 e he
    | some a =>
      rw [modifyFirst_const hf] at he
      rcases mem_modifyFirst he with he | ⟨_, _, _, rfl⟩
      · exact h4 e he
      · exact hs a hf (h4 a (List.mem_of_find?_eq_some hf))

/-- The drain entry changed, and still the drain entry. -/
theorem MergeQueue.sound.onDrain (h : q.sound) (hw : ∀ e, (f e).word = e.word)
    (hs : ∀ e, q.drain? = some e → e.sound → (f e).sound) (hd : ∀ e, e.draining = true → (f e).draining = true) :
    (q.onDrain f).sound := by
  refine h.modify hw hs ?_
  cases hf : q.entries.find? Entry.draining with
  | none =>
    rw [modifyFirst_none hf]
    exact h.2.2.1
  | some a =>
    obtain ⟨before, after, h1, _, ha, h2⟩ := modifyFirst_split (f := f) hf
    have h3 := h.2.2.1
    rw [h1, List.filter_append, List.filter_cons_of_pos ha] at h3
    rw [h2, List.filter_append, List.filter_cons_of_pos (hd a ha)]
    simpa using h3

/-- Every entry changed in what soundness does not read. -/
theorem MergeQueue.sound.map (h : q.sound) (hw : ∀ e, (f e).word = e.word) (hs : ∀ e, (f e).state = e.state)
    (hl : ∀ e, (f e).lanes = e.lanes) : MergeQueue.sound { q with entries := q.entries.map f } := by
  obtain ⟨h1, h2, h3, h4⟩ := h
  have hd : Entry.draining ∘ f = Entry.draining := funext fun e => by simp [Entry.draining, hs]
  refine ⟨by simpa using h1, ?_, ?_, fun e he => ?_⟩
  · simpa [Function.comp_def, hw] using h2
  · rw [List.filter_map, hd, List.length_map]
    exact h3
  · obtain ⟨a, ha, rfl⟩ := List.mem_map.mp he
    unfold Entry.sound Entry.complete
    rw [hs, hl]
    exact h4 a ha

/-- A lane set that can be taken leaves the queue sound (R49 to R51). -/
theorem MergeQueue.sound.take (h : q.sound) {lanes : List LaneWrite} (ht : q.canTake lanes = true) (c : Creator)
    (mark granted : Bool) : (q.takeSet c mark granted lanes).sound := by
  obtain ⟨h1, h2, h3, h4⟩ := h
  rw [MergeQueue.takeSet_eq h2]
  have hroom : (q.newWords lanes).length ≤ 16 - q.entries.length := by
    simp only [MergeQueue.canTake, MergeQueue.lacksRoom, MergeQueue.free, Config.queueCapacity, Bool.and_eq_true,
      Bool.not_eq_true'] at ht
    exact Nat.le_of_not_lt (of_decide_eq_false ht.2)
  have hjoin : ∀ e : Entry, (if e.word ∈ beatWords lanes then e.mergeLanes (lanesFor lanes e.word) granted else e).word = e.word :=
    fun e => by split <;> rfl
  have hdrain : ∀ e : Entry,
      (if e.word ∈ beatWords lanes then e.mergeLanes (lanesFor lanes e.word) granted else e).draining = e.draining :=
    fun e => by
      split
      · exact e.mergeLanes_draining ..
      · rfl
  refine ⟨?_, ?_, ?_, fun e he => ?_⟩
  · simp only [List.length_append, List.length_map]
    omega
  · simp only [List.map_append, List.map_map, Function.comp_def, hjoin, Entry.create]
    rw [List.nodup_append, List.map_id']
    refine ⟨h2, ((beatWords_spec lanes).1.imp fun hlt => Nat.ne_of_lt hlt).filter _, fun a ha b hb hab => ?_⟩
    subst hab
    exact (q.entry?_isNone a).mp (List.mem_filter.mp hb).2 ha
  · have hnew : ((q.newWords lanes).map fun a => Entry.create a (lanesFor lanes a) c mark).filter Entry.draining = [] := by
      rw [List.filter_eq_nil_iff]
      intro e he
      obtain ⟨a, _, rfl⟩ := List.mem_map.mp he
      exact nofun
    rw [List.filter_append, hnew, List.append_nil, List.filter_map,
      show Entry.draining ∘ _ = Entry.draining from funext hdrain, List.length_map]
    exact h3
  · rcases List.mem_append.mp he with he | he
    · obtain ⟨a, ha, rfl⟩ := List.mem_map.mp he
      split
      · exact (h4 a ha).merged _ _
      · exact h4 a ha
    · obtain ⟨a, ha, rfl⟩ := List.mem_map.mp he
      refine ⟨lanesFor_someValid ((beatWords_spec lanes).2 a |>.mp (List.mem_of_mem_filter ha)), ?_⟩
      rintro (h | h) <;> cases h

end

/-- The drain choice leaves the queue sound (R55, R56). -/
theorem MergeQueue.sound.choose (h : s.merge.sound) : s.chooseDrain.merge.sound := by
  unfold State.chooseDrain
  split
  · exact h
  · rename_i hd
    refine h.modify (fun e => rfl) (fun e _ => Entry.sound.chosen) ?_
    have hnone : s.merge.entries.filter Entry.draining = [] := by
      have : s.merge.entries.find? Entry.draining = none := Option.not_isSome_iff_eq_none.mp hd
      rw [List.filter_eq_nil_iff]
      simpa using this
    generalize (if s.urgent = true then fun e : Entry => e.state == .collecting else fun e => e.due s.merge.linger) = p
    cases hf : s.merge.entries.find? p with
    | none =>
      rw [modifyFirst_none hf, hnone]
      exact Nat.zero_le _
    | some a =>
      obtain ⟨before, after, h1, _, _, h2⟩ := modifyFirst_split (f := Entry.chosen) hf
      rw [h1, List.filter_append, List.append_eq_nil_iff, List.filter_cons] at hnone
      have hafter : after.filter Entry.draining = [] := by
        have := hnone.2
        split at this
        · cases this
        · exact this
      rw [h2, List.filter_append, hnone.1, List.filter_cons_of_pos a.chosen_draining, hafter]
      exact le_rfl

theorem MergeMove.sound {q : MergeQueue} (h : MergeMove s q) (hs : s.merge.sound) : q.sound := by
  cases h with
  | choose => exact hs.choose
  | take mark granted _ ht => exact hs.take ht _ _ _
  | mark p =>
    refine hs.map (fun e => ?_) (fun e => ?_) (fun e => ?_) <;> split <;> rfl
  | age d => exact hs.map (fun e => rfl) (fun e => rfl) (fun e => rfl)
  | remove =>
    obtain ⟨h1, h2, h3, h4⟩ := hs
    have hsub : (s.merge.entries.eraseP Entry.draining).Sublist s.merge.entries := List.eraseP_sublist
    exact ⟨hsub.length_le.trans h1, h2.sublist (hsub.map _), (hsub.filter _).length_le.trans h3,
      fun e he => h4 e (hsub.subset he)⟩
  | fetch w => exact hs.onDrain (fun e => rfl) (fun e _ _ => .fetched e w) (fun e _ => rfl)
  | retry =>
    exact hs.onDrain (fun e => rfl) (fun e _ he => he.retried) (fun e he => e.firstTimeout_draining.trans he)
  | @grant e he hst =>
    refine hs.onDrain (fun e => rfl) (fun a ha hsound => ?_) (fun e _ => rfl)
    cases ha.symm.trans he
    exact ⟨hsound.1, fun _ => hsound.2 hst⟩
  | config _ _ _ => exact hs

end Sys2Proof.Machine
end


section
/-!
PROOF. The drain choice is never left open (R55): after a command it has been made anew, the drain slot is taken, or nothing
has made an entry choosable.
-/

namespace Sys2Proof.Machine

variable {s t u : State}

/-! ### A choice made, and what leaves it made -/

/-- What the drain choice looks for: any COLLECTING entry of an urgent queue, else one that is due (R55). -/
def State.candidate (s : State) : Entry → Bool :=
  if s.urgent then fun e => e.state == .collecting else fun e => e.due s.merge.linger

theorem State.candidate_collecting {e : Entry} (h : s.candidate e = true) : e.draining = false := by
  unfold State.candidate at h
  unfold Entry.draining
  split at h <;> simp_all [Entry.due]

theorem State.chooseDrain_free (h : s.merge.drain? = none) :
    s.chooseDrain = { s with merge := { s.merge with entries := modifyFirst s.candidate Entry.chosen s.merge.entries } } := by
  simp [State.chooseDrain, h, State.candidate]

/-- An entry chosen takes the drain slot (R55). -/
theorem MergeQueue.drain?_of_mem {q : MergeQueue} {e : Entry} (h : e ∈ q.entries) (hd : e.draining = true) :
    q.drain?.isSome = true := List.find?_isSome.mpr ⟨e, h, hd⟩

theorem DrainChosen_iff : DrainChosen s ↔ s.merge.drain?.isSome = true ∨ ∀ e ∈ s.merge.entries, s.candidate e = false := by
  cases hd : s.merge.drain? with
  | some e => simp [DrainChosen, State.chooseDrain_taken, hd]
  | none =>
    unfold DrainChosen
    rw [State.chooseDrain_free hd]
    simp only [Option.isSome_none, Bool.false_eq_true, false_or]
    cases hf : s.merge.entries.find? s.candidate with
    | none =>
      rw [modifyFirst_none hf]
      simpa using hf
    | some a =>
      obtain ⟨before, after, h1, _, ha, h2⟩ := modifyFirst_split (f := Entry.chosen) hf
      constructor
      · intro h
        have h := congrArg (fun t : State => t.merge.entries) h
        simp only [h2] at h
        rw [h1, List.append_cancel_left_eq, List.cons.injEq] at h
        have hsame := a.chosen_draining
        rw [h.1, State.candidate_collecting ha] at hsame
        cases hsame
      · intro h
        rw [h a (List.mem_of_find?_eq_some hf)] at ha
        cases ha

theorem DrainChosen.of_taken (h : s.merge.drain?.isSome = true) : DrainChosen s := DrainChosen_iff.mpr (.inl h)

/-- The drain choice leaves none open (R55). -/
theorem State.chooseDrain_chosen (s : State) : DrainChosen s.chooseDrain := by
  cases hd : s.merge.drain? with
  | some e =>
    have h : s.merge.drain?.isSome = true := by simp [hd]
    rw [State.chooseDrain_taken h]
    exact .of_taken h
  | none =>
    cases hf : s.merge.entries.find? s.candidate with
    | none =>
      have hall := DrainChosen_iff.mpr (.inr (by simpa using hf))
      rw [show s.chooseDrain = s from hall]
      exact hall
    | some a =>
      obtain ⟨before, after, h1, _, ha, h2⟩ := modifyFirst_split (f := Entry.chosen) hf
      refine .of_taken (MergeQueue.drain?_of_mem (e := a.chosen) ?_ a.chosen_draining)
      rw [State.chooseDrain_free hd]
      simp [h2]

/-- The queue is as it was, and urgent only if it was: no entry has become choosable (R54, R55). -/
def State.calm (s t : State) : Prop := t.merge = s.merge ∧ (t.urgent = true → s.urgent = true)

theorem State.calm.trans (h : s.calm t) (h' : t.calm u) : s.calm u := ⟨h'.1.trans h.1, h.2 ∘ h'.2⟩

theorem State.calm.refl (s : State) : s.calm s := ⟨rfl, id⟩

theorem DrainChosen.calm (h : DrainChosen s) (hc : s.calm t) : DrainChosen t := by
  obtain ⟨hm, hu⟩ := hc
  rw [DrainChosen_iff] at *
  rw [hm]
  refine h.imp id fun h e he => ?_
  have := h e he
  unfold State.candidate at *
  rw [hm]
  by_cases hs : s.urgent = true
  · simp only [hs, if_true] at this
    split
    · exact this
    · simp [Entry.due, this]
  · simp only [hs] at this
    simpa [show t.urgent = false by simpa using fun h => hs (hu h)] using this

/-- The queue stays, the slot stays or does not show phase 3, and the beat in action stays or is no write beat. -/
theorem State.calm.of_same (hm : t.merge = s.merge) (ha : t.host.action = s.host.action ∨ t.host.writeBeat = false)
    (hs : t.mgmt.slot = s.mgmt.slot ∨ t.mgmt.slot ≠ some (.softReset .phase3)) : s.calm t := by
  refine ⟨hm, ?_⟩
  have hwait : t.waitsForRoom = true → s.waitsForRoom = true := by
    unfold State.waitsForRoom
    rw [hm]
    rcases ha with ha | ha
    · rw [ha]
      exact id
    · unfold HostPort.writeBeat at ha
      split <;> simp_all
  have hslot : t.mgmt.slot = some (.softReset .phase3) → s.mgmt.slot = some (.softReset .phase3) := by
    rcases hs with hs | hs
    · rw [hs]
      exact id
    · exact fun h => absurd h hs
  simp only [State.urgent, hm, Bool.or_eq_true, beq_iff_eq]
  exact Or.imp (Or.imp id hwait) hslot

theorem State.calm.ite {p : Prop} [Decidable p] {a b : State} (ha : s.calm a) (hb : s.calm b) : s.calm (if p then a else b) := by
  split
  · exact ha
  · exact hb

/-- An operation of the streamer leaves the queue and its urgency alone. -/
theorem StreamFrame.calm (h : StreamFrame s t) : s.calm t := by
  rw [h.1]
  exact .refl s

theorem State.calm.posts (s : State) (es : List Event) : s.calm (es.foldl State.post s) := by
  induction es generalizing s with
  | nil => exact .refl s
  | cons e es ih => exact ih (s.post e)

/-! ### What a command leaves of the choice -/

/-- Nothing has become choosable, the drain slot is taken, or the choice was made and nothing has become choosable since. -/
inductive State.Settled (s : State) : State → Prop
  | calm {t : State} : s.calm t → Settled s t
  | taken {t : State} : t.merge.drain?.isSome = true → Settled s t
  | chosen (u : State) {t : State} : u.chooseDrain.calm t → Settled s t

theorem State.Settled.same (s : State) : s.Settled s := .calm (.refl s)

theorem State.Settled.made (s u : State) : s.Settled u.chooseDrain := .chosen u (.refl _)

theorem State.Settled.keeps (h : s.Settled t) (hs : DrainChosen s) : DrainChosen t := by
  cases h with
  | calm h => exact hs.calm h
  | taken h => exact .of_taken h
  | chosen u h => exact u.chooseDrain_chosen.calm h

theorem State.Settled.trans (h : s.Settled t) (h' : t.Settled u) : s.Settled u := by
  cases h' with
  | taken h' => exact .taken h'
  | chosen v h' => exact .chosen v h'
  | calm hc =>
    cases h with
    | calm h => exact .calm (h.trans hc)
    | taken h => exact .taken (by rw [hc.1]; exact h)
    | chosen v h => exact .chosen v (h.trans hc)

theorem State.Settled.after (h : t.Settled u) (hc : s.calm t) : s.Settled u := .trans (.calm hc) h

theorem State.Settled.then (h : s.Settled t) (hc : t.calm u) : s.Settled u := h.trans (.calm hc)

theorem State.Settled.ite {p : Prop} [Decidable p] {a b : State} (ha : p → s.Settled a) (hb : ¬ p → s.Settled b) :
    s.Settled (if p then a else b) := by
  split
  · exact ha ‹_›
  · exact hb ‹_›

/-- A change of the drain entry that leaves it the drain entry. -/
theorem State.Settled.onDrain {f : Entry → Entry} (hf : ∀ e, e.draining = true → (f e).draining = true) :
    s.Settled { s with merge := s.merge.onDrain f } := by
  cases hd : s.merge.entries.find? Entry.draining with
  | none =>
    have : s.merge.onDrain f = s.merge := by
      unfold MergeQueue.onDrain
      rw [modifyFirst_none hd]
    exact .calm (.of_same this (.inl rfl) (.inl rfl))
  | some e =>
    obtain ⟨before, after, _, _, he, h2⟩ := modifyFirst_split (f := f) hd
    refine .taken (MergeQueue.drain?_of_mem (e := f e) ?_ (hf e he))
    simp [MergeQueue.onDrain, h2]

theorem State.settled_settle (s u : State) (es : List Event) : s.Settled (u.settle es) := by
  unfold State.settle
  split <;> exact .made ..

theorem State.settled_afterRemoval (s u : State) (es : List Event) : s.Settled (u.afterRemoval es) :=
  s.settled_settle ..

theorem State.phases4to7_calm (s : State) : s.calm s.phases4to7 := by
  unfold State.phases4to7
  split <;> exact .of_same (by rfl) (.inl rfl) (.inr (by simp [State.phase7Start]))

theorem State.settled_endPhase3 (s : State) : s.Settled s.endPhase3 := by
  unfold State.endPhase3
  split
  · rw [State.resetPhases_eq]
    exact .calm s.phases4to7_calm
  · exact .same s

/-! ### The memory port -/

theorem State.settled_hostReadFails (s : State) (a : Nat) : s.Settled (s.hostReadFails a) := by
  unfold State.hostReadFails
  split
  · exact s.settled_settle ..
  · exact .same s
  · exact .same s

theorem State.settled_drainFails (s : State) (write : Bool) : s.Settled (s.drainFails write) := by
  unfold State.drainFails
  split
  · exact .same s
  · split
    · exact s.settled_afterRemoval ..
    · exact .onDrain fun e he => e.firstTimeout_draining.trans he

theorem State.streamFails_calm (s : State) (a : Nat) : s.calm (s.streamFails a) := by
  unfold State.streamFails
  split <;> exact .of_same rfl (.inl rfl) (.inl rfl)

theorem State.settled_failed (s : State) (a : Access) : s.Settled (s.failed a) := by
  unfold State.failed
  split
  · exact .same s
  · cases a.requester with
    | hostRead => exact s.settled_hostReadFails _
    | drain => exact s.settled_drainFails _
    | stream => exact .calm (s.streamFails_calm _)

theorem State.freePort_calm (s : State) : s.calm s.freePort := .refl s

theorem State.settled_hostAnswer (s : State) (w : Word) : s.Settled (s.hostAnswer w) := by
  unfold State.hostAnswer
  split
  · simp only
    split
    · exact s.settled_settle ..
    · exact .calm (.of_same rfl (.inr rfl) (.inl rfl))
  · exact .same s
  · exact .same s

theorem State.streamAnswer_calm (s : State) (w : Word) : s.calm (s.streamAnswer w) := by
  unfold State.streamAnswer
  split
  · exact .refl s
  · split <;> exact .refl s

theorem State.settled_answered (s : State) (a : Access) (md : Word) : s.Settled (s.answered a md) := by
  unfold State.answered
  split
  · exact .same s
  · cases a.requester with
    | hostRead => exact s.settled_hostAnswer _
    | stream => exact .calm (s.streamAnswer_calm _)
    | drain =>
      cases a.write with
      | none => exact .onDrain fun e _ => rfl
      | some w => exact s.settled_afterRemoval ..

theorem State.settled_start (s : State) (g : Grant) : s.Settled (s.start g) := by
  unfold State.start
  simp only
  split
  · exact (State.Settled.onDrain fun e _ => rfl).then (.of_same rfl (.inl rfl) (.inl rfl))
  · exact .calm (.of_same rfl (.inl rfl) (.inl rfl))

theorem State.settled_grant (s : State) (g : Grant) : s.Settled (s.grant g) := by
  unfold State.grant
  simp only
  split
  · exact s.settled_start g
  · exact ((s.settled_start g).then (State.freePort_calm _)).trans (State.settled_failed _ _)

/-! ### The frames -/

theorem State.reply_calm (s : State) (d : List Byte) : s.calm (s.reply d) := .of_same rfl (.inl rfl) (.inl rfl)

theorem State.Settled.replied (h : s.Settled t) (d : List Byte) : s.Settled (t.reply d) := h.then (t.reply_calm d)

theorem State.setWindow_calm (s : State) (n : Fin 8) (w : Window) : s.calm (s.setWindow n w) := .refl s

theorem State.insertDamage_calm (s : State) (w : Fin 8) (q : Rect) : s.calm (s.insertDamage w q).takeIfIdle := by
  rw [State.insertDamage_takeIfIdle]
  exact StreamFrame.calm (t := (s.insertRect w q).takeIfIdle) ((State.takeIfIdle_frame _).after_set) |>.trans (.posts _ _)

theorem State.scrollDamage_calm (s : State) (n : Fin 8) (v : WindowValues) : s.calm (s.scrollDamage n v) := by
  unfold State.scrollDamage
  split
  · exact .refl s
  · split
    · exact (show s.calm { s.abortRegion with damage := s.damage.replaceWindow n v.full } from s.abortRegion_frame.calm).trans
        (State.regionEnd_frame _).calm
    · split
      · exact .refl s
      · exact s.insertDamage_calm _ _

theorem State.changeScroll_calm (s : State) (n : Fin 8) (v : WindowValues) (y : Nat) : s.calm (s.changeScroll n v y) := by
  unfold State.changeScroll
  split
  · exact .refl s
  · exact (s.setWindow_calm n _).trans (State.scrollDamage_calm _ _ _)

/-- The command settles the drain choice. -/
def State.Settles (s : State) (c : Instr) : Prop := ∃ t, exec c s = .next t ∧ s.Settled t

section
variable (h : s.ready)
include h

theorem settles_softReset : s.Settles .softReset := by
  refine ⟨_, exec_softReset h, ?_⟩
  split
  · exact (State.Settled.same s).replied _
  · exact (State.Settled.same s).replied _
  all_goals exact (s.settled_settle ..).replied _

theorem settles_closeWindow (b : Byte) : s.Settles (.closeWindow b) := by
  refine ⟨_, exec_closeWindow b h, ?_⟩
  split
  · exact (State.Settled.same s).replied _
  · refine .ite (fun _ => (State.Settled.same s).replied _) fun hs => ?_
    split
    · exact (State.Settled.same s).replied _
    · exact (s.settled_settle ..).replied _

theorem settles_flush (b : Byte) : s.Settles (.flush b) := by
  refine ⟨_, exec_flush b h, ?_⟩
  split
  · exact (State.Settled.same s).replied _
  · exact .ite (fun _ => (State.Settled.same s).replied _) fun _ => (s.settled_settle ..).replied _

theorem settles_queueConfig (hw lg : Byte) : s.Settles (.queueConfig hw lg) :=
  ⟨_, exec_queueConfig hw lg h, .ite (fun _ => (State.Settled.same s).replied _) fun _ => (State.Settled.made ..).replied _⟩

/-- Every frame that is taken settles the drain choice. -/
theorem frame_settles {c : Instr} (hc : c.isFrame = true) : s.Settles c := by
  have answered {d : List Byte} : s.calm (s.reply d) := s.reply_calm d
  have window {w : Fin 8} {v : Window} {d : List Byte} : s.calm ((s.setWindow w v).reply d) := answered
  have streamed {u : State} {d : List Byte} (hu : StreamFrame s u) : s.calm (u.reply d) := hu.calm.trans (u.reply_calm d)
  cases c with
  | softReset => exact settles_softReset h
  | closeWindow b => exact settles_closeWindow h b
  | flush b => exact settles_flush h b
  | queueConfig hw lg => exact settles_queueConfig h hw lg
  | brokenFrame => exact ⟨_, exec_brokenFrame h, .calm answered⟩
  | unknownCommandFrame => exact ⟨_, exec_unknownCommandFrame h, .calm answered⟩
  | status => exact ⟨_, exec_status h, .calm answered⟩
  | ident => exact ⟨_, exec_ident h, .calm answered⟩
  | damageRead => exact ⟨_, exec_damageRead h, .calm answered⟩
  | eventsRead => exact ⟨_, exec_eventsRead h, .calm answered⟩
  | stageWindow d =>
    exact ⟨_, exec_stageWindow d h, .calm (.ite answered (.ite answered (.ite answered answered)))⟩
  | openWindow b =>
    refine ⟨_, exec_openWindow b h, .calm ?_⟩
    split
    · exact answered
    · exact window
  | queryWindow b =>
    refine ⟨_, exec_queryWindow b h, .calm ?_⟩
    split <;> exact answered
  | setScroll b y =>
    refine ⟨_, exec_setScroll b y h, .calm ?_⟩
    split
    · exact answered
    · exact .ite answered ((s.changeScroll_calm ..).trans (State.reply_calm _ _))
  | setKey b k =>
    refine ⟨_, exec_setKey b k h, .calm ?_⟩
    split
    · exact answered
    · exact .ite answered window
  | setClip b r =>
    refine ⟨_, exec_setClip b r h, .calm ?_⟩
    split
    · exact answered
    · exact .ite answered window
  | setAccess b m =>
    refine ⟨_, exec_setAccess b m h, .calm ?_⟩
    split
    · exact answered
    · split
      · exact answered
      · exact window
  | damageAdd b r =>
    refine ⟨_, exec_damageAdd b r h, .calm ?_⟩
    split
    · exact answered
    · exact .ite answered (.ite answered ((s.insertDamage_calm ..).trans (State.reply_calm _ _)))
  | damageClear b =>
    refine ⟨_, exec_damageClear b h, .calm ?_⟩
    split
    · exact answered
    · exact .ite answered answered
  | streamMode m =>
    refine ⟨_, exec_streamMode m h, .calm ?_⟩
    split
    · exact answered
    · exact .ite answered (streamed (s.setMode_frame _))
  | streamConfig f l r =>
    refine ⟨_, exec_streamConfig f l r h, .calm ?_⟩
    split
    · exact answered
    · exact .ite answered (.ite answered (.ite answered answered))
  | streamResume =>
    exact ⟨_, exec_streamResume h, .calm (.ite answered (.ite answered (streamed s.resume_frame)))⟩
  | irqMask m =>
    refine ⟨_, exec_irqMask m h, .calm ?_⟩
    split
    · exact answered
    · exact .ite answered answered
  | profileArm b =>
    refine ⟨_, exec_profileArm b h, .calm ?_⟩
    split
    · exact answered
    · exact .of_same rfl (.inl rfl) (.inl rfl)
  | profileWrite =>
    refine ⟨_, exec_profileWrite h, .calm ?_⟩
    split
    · exact answered
    · exact .ite answered (.ite answered (.of_same rfl (.inl rfl) (.inr (by simp [State.startWrite]))))
  | profileRetire =>
    refine ⟨_, exec_profileRetire h, .calm ?_⟩
    split
    · exact answered
    · exact .ite answered (.ite answered answered)
  | profileLoad b =>
    refine ⟨_, exec_profileLoad b h, .calm ?_⟩
    split
    · exact answered
    · exact .ite answered (.ite answered (.ite answered (.of_same rfl (.inl rfl) (.inr (by simp)))))
  | powerOn _ | resetPin _ | slotExamination | applyGlobalSettings | softResetPhase2End | softResetPhase3End
  | closeDrainComplete | flushComplete | programmingEnd _ | hostRequestAccept _ | beatDecode | laneArrival
  | hostAnswerTransfer | entryDue _ | arbiterGrant | memoryAnswer _ | accessTimeout | pixelSent | endSent | panelAccept
  | panelRefuse | answerTimeout | sync | abortMessageSent => cases hc

end

/-! ### The other commands -/

/-- The end of a load leaves the queue and its urgency alone (R208 to R211). -/
theorem State.endLoad_calm (s : State) (kind : LoadKind) (image : Option (Fin 4)) : s.calm (s.endLoad kind image) := by
  obtain ⟨r, ev, heq⟩ := s.endLoad_eq kind image
  rw [heq]
  cases kind with
  | startUp => exact .of_same rfl (.inl rfl) (.inl rfl)
  | softReset | profileLoad _ => exact .of_same rfl (.inl rfl) (.inr nofun)

theorem Opens.calm (h : Opens s t) : s.calm t := by
  obtain ⟨ws, ev, rfl⟩ := h.frame
  exact .refl s

theorem State.settled_applySettings (s : State) (g : Settings) (o : Option (Fin 4)) : s.Settled (s.applySettings g o) :=
  (State.Settled.made s _).then (State.takeIfIdle_frame _).calm

theorem State.settled_loadImage (s : State) (image : Option (Fin 4)) : s.Settled (s.loadImage image) := by
  unfold State.loadImage
  cases image with
  | none => exact s.settled_applySettings ..
  | some n => exact (s.settled_applySettings ..).then (opens_openWindows ..).calm

theorem State.examined_calm (s : State) (k : LoadKind) (n : Fin 4) : s.calm (s.examined k n) := by
  have hr : s.calm (s.rejectSlot n) := by
    unfold State.rejectSlot
    split <;> exact .refl s
  unfold State.examined
  split
  · exact .refl s
  · cases k with
    | startUp | softReset => exact hr
    | profileLoad m =>
      refine hr.trans ?_
      generalize s.rejectSlot n = u
      exact .of_same rfl (.inl rfl) (.inr nofun)

theorem State.answerFailure_calm (s : State) (cause : LinkCause) : s.calm (s.answerFailure cause) := by
  unfold State.answerFailure
  split
  · exact .refl s
  · split
    · exact ((State.startRegion_frame _).after_set (s := s)).calm
    · exact .refl s

theorem exec_settles {c : Instr} (hc : c.isFrame = false) (hr : ∀ asel, c ≠ .powerOn asel ∧ c ≠ .resetPin asel) (s : State) :
    s.Settles c := by
  cases c with
  | powerOn asel => exact absurd rfl (hr asel).1
  | resetPin asel => exact absurd rfl (hr asel).2
  | applyGlobalSettings =>
    refine ⟨_, rfl, ?_⟩
    split
    · exact .ite (fun _ => .same s) fun _ => (s.settled_loadImage _).then (State.endLoad_calm _ _ _)
    · exact .same s
    · exact .same s
  | slotExamination =>
    refine ⟨_, rfl, .calm ?_⟩
    split
    · exact s.examined_calm _ _
    · exact .refl s
    · exact .refl s
  | softResetPhase2End => exact ⟨_, rfl, .ite (fun _ => .made ..) fun _ => .same s⟩
  | softResetPhase3End => exact ⟨_, rfl, s.settled_endPhase3⟩
  | closeDrainComplete =>
    refine ⟨_, rfl, .calm ?_⟩
    split
    · obtain ⟨n, _, _, rfl⟩ := State.closeEnd?_some ‹_›
      exact .of_same rfl (.inl rfl) (.inr nofun)
    · exact .refl s
  | flushComplete =>
    refine ⟨_, rfl, .calm ?_⟩
    split
    · obtain ⟨sel, _, rfl⟩ := State.flushEnd?_some ‹_›
      exact .of_same rfl (.inl rfl) (.inr nofun)
    · exact .refl s
  | programmingEnd failed =>
    refine ⟨_, rfl, .calm ?_⟩
    split
    · exact .refl s
    · rename_i w _
      obtain ⟨r, heq⟩ := s.endProgramming_eq w failed
      rw [heq]
      exact .of_same rfl (.inl rfl) (.inr nofun)
  | hostRequestAccept r =>
    refine ⟨_, rfl, .calm (.ite (.refl s) ?_)⟩
    simp only
    split <;> exact .of_same rfl (.inl rfl) (.inl rfl)
  | beatDecode =>
    refine ⟨_, rfl, .ite (fun _ => .same s) fun _ => ?_⟩
    split
    · exact .same s
    · exact s.settled_settle ..
  | laneArrival =>
    refine ⟨_, rfl, ?_⟩
    split
    · exact .ite (fun _ => s.settled_settle ..) fun _ => .same s
    · exact .same s
    · exact .same s
  | hostAnswerTransfer =>
    refine ⟨_, rfl, .calm ?_⟩
    split
    · exact .refl s
    · exact .ite (.of_same rfl (.inl rfl) (.inl rfl)) (.refl s)
  | entryDue w =>
    refine ⟨_, rfl, ?_⟩
    split
    · exact .ite (fun _ => .made ..) fun _ => .same s
    · exact .same s
  | arbiterGrant =>
    refine ⟨_, rfl, .ite (fun _ => .same s) fun _ => ?_⟩
    split
    · exact .same s
    · exact s.settled_grant _
  | memoryAnswer md =>
    refine ⟨_, rfl, ?_⟩
    split
    · exact .same s
    · exact (State.settled_answered _ _ _).after s.freePort_calm
  | accessTimeout =>
    refine ⟨_, rfl, ?_⟩
    split
    · exact .same s
    · exact (State.settled_failed _ _).after s.freePort_calm
  | pixelSent =>
    refine ⟨_, rfl, .calm (.ite (.refl s) ?_)⟩
    split
    · exact .refl s
    · split <;> exact .refl s
  | endSent =>
    refine ⟨_, rfl, .calm (.ite (.refl s) ?_)⟩
    split
    · exact .refl s
    · exact .ite (.refl s) (.refl s)
  | panelAccept => exact ⟨_, rfl, .calm (.ite ((State.regionEnd_frame _).after_set (s := s)).calm (.refl s))⟩
  | panelRefuse => exact ⟨_, rfl, .calm (.ite (s.answerFailure_calm _) (.refl s))⟩
  | answerTimeout => exact ⟨_, rfl, .calm (.ite (s.answerFailure_calm _) (.refl s))⟩
  | sync => exact ⟨_, rfl, .calm (.ite ((State.continuePass_frame _).after_set (s := s)).calm (.refl s))⟩
  | abortMessageSent =>
    exact ⟨_, rfl, .calm (.ite (.refl s) ((State.startRegion_frame _).after_set (s := s)).calm)⟩
  | setKey _ k | setClip _ k | irqMask k => cases k <;> cases hc
  | brokenFrame | unknownCommandFrame | status | ident | softReset | stageWindow _ | openWindow _ | closeWindow _
  | queryWindow _ | setScroll _ _ | setAccess _ _ | flush _ | queueConfig _ _ | damageRead | damageAdd _ _
  | damageClear _ | streamMode _ | streamConfig _ _ _ | streamResume | eventsRead | profileArm _ | profileWrite
  | profileRetire | profileLoad _ => cases hc

/-- No drain choice is left open by a step (R55). -/
theorem DrainChosen.step (h : step s = .next t) (hs : DrainChosen s) : DrainChosen t := by
  unfold Sys2Proof.Machine.step at h
  cases hp : s.pending with
  | nil =>
    rw [hp] at h
    obtain rfl := Host.Outcome.next.inj h
    exact State.chooseDrain_chosen _
  | cons c rest =>
    rw [hp] at h
    have h : exec c { s with pending := rest } = .next t := h
    have hs' : DrainChosen { s with pending := rest } := hs.calm (.refl s)
    generalize { s with pending := rest } = u at h hs'
    have of_settles (hu : u.Settles c) : DrainChosen t := by
      obtain ⟨v, hv, hset⟩ := hu
      obtain rfl := Host.Outcome.next.inj (hv.symm.trans h)
      exact hset.keeps hs'
    by_cases hc : c.isFrame = true
    · by_cases hready : u.startingUp = true
      · obtain rfl := Host.Outcome.next.inj ((exec_frame_startingUp hc hready).symm.trans h)
        exact hs'
      · exact of_settles (frame_settles (by simpa using hready) hc)
    · by_cases hr : ∃ asel, c = .powerOn asel ∨ c = .resetPin asel
      · obtain ⟨asel, rfl | rfl⟩ := hr <;> obtain rfl := Host.Outcome.next.inj h <;> exact .of_empty rfl
      · exact of_settles (exec_settles (by simpa using hc) (by grind) u)

/-! ### The merge queue (R46, R47, R55) -/

theorem Move.keeps_merge (h : Move s t) (hs : s.merge.sound) : t.merge.sound := by
  cases h with
  | merge h => exact h.sound hs
  | stream h => rw [h.frame.1]; exact hs
  | operation h => rw [h.frame]; exact hs
  | phase3Ends _ _ => rw [s.phases4to7_calm.1]; exact hs
  | _ => exact hs

theorem MergeSound.step (h : step s = .next t) (hs : MergeSound s) : MergeSound t := by
  rw [MergeSound_iff] at *
  exact step_keeps (P := fun s => s.merge.sound) (fun _ _ => Move.keeps_merge) (fun _ _ h hs => by rw [h.frame]; exact hs)
    (fun _ _ _ h => h) (fun _ _ _ _ _ h => h) (fun u kind image hu => by rw [(u.endLoad_calm kind image).1]; exact hu)
    (fun _ _ _ => ⟨Nat.zero_le _, .nil, Nat.zero_le _, nofun⟩) (fun _ _ h => h) h hs

end Sys2Proof.Machine
end


section
/-!
PROOF. Formats and depth conversion (R1 to R9).
-/

namespace Sys2Proof.Machine

/-! ### Repeated digits (R4) -/

section
variable {v d e : Nat}

theorem repeatDigits_lt (hv : v < 2 ^ d) (n : Nat) : repeatDigits v d n < 2 ^ (d * n) := by
  induction n with
  | zero => simp [repeatDigits]
  | succ n ih =>
    calc repeatDigits v d n * 2 ^ d + v < (repeatDigits v d n + 1) * 2 ^ d := by rw [Nat.add_one_mul]; omega
      _ ≤ 2 ^ (d * n) * 2 ^ d := Nat.mul_le_mul_right _ ih
      _ = 2 ^ (d * (n + 1)) := by rw [← Nat.pow_add, Nat.mul_succ]

/-- The digits of the copies are those of the value, over and over. -/
theorem repeatDigits_testBit (hv : v < 2 ^ d) {n j : Nat} (hj : j < d * n) :
    (repeatDigits v d n).testBit j = v.testBit (j % d) := by
  induction n generalizing j with
  | zero => omega
  | succ n ih =>
    rw [repeatDigits, Nat.mul_comm, Nat.testBit_two_pow_mul_add _ hv]
    split
    · rw [Nat.mod_eq_of_lt ‹_›]
    · rename_i h
      rw [Nat.mul_succ] at hj
      rw [ih (by omega), ← Nat.mod_eq_sub_mod (by omega)]

theorem repeatDigits_zero (d n : Nat) : repeatDigits 0 d n = 0 := by
  induction n with
  | zero => rfl
  | succ n ih => rw [repeatDigits, ih, Nat.zero_mul]

theorem repeatDigits_largest (d n : Nat) : repeatDigits (2 ^ d - 1) d n = 2 ^ (d * n) - 1 := by
  induction n with
  | zero => rfl
  | succ n ih =>
    have h1 : 1 ≤ 2 ^ d := Nat.one_le_two_pow
    have h2 : 1 * 2 ^ d ≤ 2 ^ (d * n) * 2 ^ d := Nat.mul_le_mul_right _ Nat.one_le_two_pow
    rw [repeatDigits, ih, Nat.mul_succ, Nat.pow_add, Nat.sub_mul]
    omega

/-! ### The conversion (R4) -/

/-- How many copies are written before the last is cut short. -/
theorem copies_bounds (hd : 1 ≤ d) : e ≤ (e + d - 1) / d * d ∧ (e + d - 1) / d * d < e + d := by
  have h1 := Nat.div_add_mod (e + d - 1) d
  have h2 := Nat.mod_lt (e + d - 1) hd
  rw [Nat.mul_comm] at h1
  omega

theorem convertDepth_same (v d : Nat) : convertDepth v d d = v := by simp [convertDepth]

theorem convertDepth_narrow (h : e < d) : convertDepth v d e = v / 2 ^ (d - e) := by
  simp [convertDepth, Nat.ne_of_lt h, h]

theorem convertDepth_widen (h : d < e) :
    convertDepth v d e = repeatDigits v d ((e + d - 1) / d) / 2 ^ ((e + d - 1) / d * d - e) := by
  simp [convertDepth, Nat.ne_of_gt h, Nat.not_lt_of_gt h]

/-- A converted value fits the depth it is converted to (R4). -/
theorem convertDepth_lt (hd : 1 ≤ d) (hv : v < 2 ^ d) (e : Nat) : convertDepth v d e < 2 ^ e := by
  rcases Nat.lt_trichotomy e d with h | rfl | h
  · rw [convertDepth_narrow h, Nat.div_lt_iff_lt_mul (Nat.two_pow_pos _), ← Nat.pow_add]
    rwa [Nat.add_sub_cancel' h.le]
  · rwa [convertDepth_same]
  · obtain ⟨hle, _⟩ := copies_bounds (e := e) hd
    rw [convertDepth_widen h, Nat.div_lt_iff_lt_mul (Nat.two_pow_pos _), ← Nat.pow_add, Nat.add_sub_cancel' hle, Nat.mul_comm _ d]
    exact repeatDigits_lt hv _

/-- The digits of a widened value, most significant first, are those of the value over and over (R4). -/
theorem convertDepth_testBit (hd : 1 ≤ d) (hv : v < 2 ^ d) (h : d < e) {i : Nat} (hi : i < e) :
    (convertDepth v d e).testBit (e - 1 - i) = v.testBit (d - 1 - i % d) := by
  obtain ⟨hle, _⟩ := copies_bounds (e := e) hd
  rw [convertDepth_widen h, Nat.testBit_div_two_pow]
  generalize (e + d - 1) / d = n at *
  rw [repeatDigits_testBit hv (by rw [Nat.mul_comm d]; omega)]
  congr 1
  have hdiv := Nat.div_add_mod i d
  have hlt := Nat.mod_lt i hd
  have hq : i / d + 1 ≤ n := by
    by_contra hn
    have : n * d ≤ i / d * d := Nat.mul_le_mul_right d (by omega)
    rw [Nat.mul_comm (i / d)] at this
    omega
  obtain ⟨m, hm⟩ := Nat.exists_eq_add_of_le hq
  have hsplit : n * d = d * (i / d) + d + d * m := by rw [hm]; ring
  have heq : e - 1 - i + (n * d - e) = (d - 1 - i % d) + d * m := by omega
  rw [heq, Nat.add_mul_mod_self_left, Nat.mod_eq_of_lt (by omega)]

theorem convertDepth_zero (h : d < e) : convertDepth 0 d e = 0 := by
  rw [convertDepth_widen h, repeatDigits_zero, Nat.zero_div]

theorem convertDepth_largest (hd : 1 ≤ d) (h : d < e) : convertDepth (2 ^ d - 1) d e = 2 ^ e - 1 := by
  obtain ⟨hle, _⟩ := copies_bounds (e := e) hd
  rw [convertDepth_widen h, repeatDigits_largest, Nat.mul_comm d]
  generalize (e + d - 1) / d * d = m at *
  obtain ⟨k, rfl⟩ := Nat.exists_eq_add_of_le hle
  rw [Nat.add_sub_cancel_left, Nat.pow_add]
  have h1 : 1 ≤ 2 ^ e := Nat.one_le_two_pow
  have h2 : 1 ≤ 2 ^ k := Nat.one_le_two_pow
  rw [Nat.div_eq_iff (by omega), Nat.sub_mul]
  have h3 : 1 * 2 ^ k ≤ 2 ^ e * 2 ^ k := Nat.mul_le_mul_right _ h1
  omega

end

/-! ### Pixels (R1 to R8) -/

/-- The fields of a pixel value are its channels (R1 to R3). -/
theorem channels_of_fields {u r g b : Nat} (hr : r < 256) (hg : g < 256) (hb : b < 256) :
    hostChannels .h8 g = .grey ⟨8, g⟩
    ∧ hostChannels .h32 (u * 16777216 + r * 65536 + g * 256 + b) = .colour ⟨8, r⟩ ⟨8, g⟩ ⟨8, b⟩
    ∧ storedChannels .c24 .rgb (r * 65536 + g * 256 + b) = .colour ⟨8, r⟩ ⟨8, g⟩ ⟨8, b⟩
    ∧ storedChannels .c24 .bgr (b * 65536 + g * 256 + r) = .colour ⟨8, r⟩ ⟨8, g⟩ ⟨8, b⟩
    ∧ storedChannels .c32 .rgb (u * 16777216 + r * 65536 + g * 256 + b) = .colour ⟨8, r⟩ ⟨8, g⟩ ⟨8, b⟩
    ∧ storedChannels .c32 .bgr (u * 16777216 + b * 65536 + g * 256 + r) = .colour ⟨8, r⟩ ⟨8, g⟩ ⟨8, b⟩
    ∧ (r < 32 → g < 64 → b < 32 → hostChannels .h16 (r * 2048 + g * 32 + b) = .colour ⟨5, r⟩ ⟨6, g⟩ ⟨5, b⟩
      ∧ storedChannels .c16 .rgb (r * 2048 + g * 32 + b) = .colour ⟨5, r⟩ ⟨6, g⟩ ⟨5, b⟩
      ∧ storedChannels .c16 .bgr (b * 2048 + g * 32 + r) = .colour ⟨5, r⟩ ⟨6, g⟩ ⟨5, b⟩)
    ∧ (r < 16 → g < 16 → b < 16 → storedChannels .c12 .rgb (r * 256 + g * 16 + b) = .colour ⟨4, r⟩ ⟨4, g⟩ ⟨4, b⟩
      ∧ storedChannels .c12 .bgr (b * 256 + g * 16 + r) = .colour ⟨4, r⟩ ⟨4, g⟩ ⟨4, b⟩
      ∧ ∀ o, storedChannels .l4 o g = .grey ⟨4, g⟩)
    ∧ (r < 8 → g < 8 → b < 4 → storedChannels .c8 .rgb (r * 32 + g * 4 + b) = .colour ⟨3, r⟩ ⟨3, g⟩ ⟨2, b⟩
      ∧ storedChannels .c8 .bgr (r * 32 + g * 4 + b) = .colour ⟨2, b⟩ ⟨3, g⟩ ⟨3, r⟩) := by
  simp only [hostChannels, storedChannels, StoredFormat.depths, Pixel.grey.injEq, Pixel.colour.injEq, Channel.mk.injEq,
    true_and, Nat.reducePow, Nat.reduceAdd]
  have : Nonempty ChannelOrder := ⟨.rgb⟩
  rw [forall_const ChannelOrder]
  omega

/-- Settles O50. -/
theorem depthConversion : Obligations.DepthConversion := by
  refine ⟨fun v d e hd hv => ⟨?_, convertDepth_narrow, fun h => ⟨convertDepth_lt hd hv e, fun i => convertDepth_testBit hd hv h,
    convertDepth_zero h, convertDepth_largest hd h⟩⟩, fun u r g b => channels_of_fields, fun v p f => ⟨?_, ?_, ?_, ?_⟩, fun key pixel => ?_⟩
  · rintro rfl
    exact convertDepth_same v e
  · intro c h
    rw [toStored, h]
    cases v.storedFormat <;> cases v.order <;> rfl
  · intro r g b h
    rw [toStored, h]
    cases v.storedFormat <;> cases v.order <;> rfl
  · intro c h
    rw [toHost, toPanel, h]
    exact ⟨by cases v.hostFormat <;> rfl, by cases f <;> rfl⟩
  · intro r g b h
    rw [toHost, toPanel, h]
    exact ⟨by cases v.hostFormat <;> rfl, by cases f <;> rfl⟩
  · simp [equalsKey]

end Sys2Proof.Machine
end


section
/-!
PROOF. Where the lanes of a pixel lie (R10, R41), and what a window beat does with them (R11, R40, R149, R152).
-/

namespace Sys2Proof.Machine

/-! ### Lanes of a word -/

theorem laneOf_toNat (w : Word) (n : Fin 8) : (laneOf w n).toNat = w.toNat / 16 ^ n.val % 16 := by
  rw [laneOf, BitVec.extractLsb'_toNat, Nat.shiftRight_eq_div_pow, Nat.pow_mul]

/-- A bypass write hands over lanes 2k and 2k + 1 for each enabled byte k (R40, R154). -/
theorem mem_bypassLanes {a : Nat} {b : WriteBeat} {l : LaneWrite} : l ∈ bypassLanes a b
    ↔ b.enables.getLsbD (l.lane.val / 2) = true ∧ l.word = a ∧ l.bits = laneOf b.data l.lane := by
  obtain ⟨word, lane, bits⟩ := l
  simp only [bypassLanes, List.mem_filterMap, List.mem_finRange, true_and, Option.ite_none_right_eq_some, Option.some.injEq,
    LaneWrite.mk.injEq]
  constructor
  · rintro ⟨n, hn, rfl, rfl, rfl⟩
    exact ⟨hn, rfl, rfl⟩
  · rintro ⟨hn, rfl, rfl⟩
    exact ⟨lane, hn, rfl, rfl, rfl⟩

theorem bypassLanes_nodup (a : Nat) (b : WriteBeat) : ((bypassLanes a b).map LaneWrite.lane).Nodup := by
  have : (bypassLanes a b).map LaneWrite.lane = (List.finRange 8).filter fun n => b.enables.getLsbD (n.val / 2) := by
    unfold bypassLanes
    induction List.finRange 8 with
    | nil => rfl
    | cons n ns ih =>
      by_cases h : b.enables.getLsbD (n.val / 2) = true
      · simp [h, ih]
      · simp [h, ih]
  rw [this]
  exact (List.nodup_finRange 8).filter _

/-! ### Stored coordinates (R41) -/

section
variable {v : WindowValues}

theorem WindowValues.storedX_lt {x : Nat} (h : x < v.width) : v.storedX x < v.width := by
  unfold WindowValues.storedX
  split <;> omega

theorem WindowValues.storedX_inj {x x' : Nat} (h : x < v.width) (h' : x' < v.width) (heq : v.storedX x = v.storedX x') :
    x = x' := by
  unfold WindowValues.storedX at heq
  split at heq <;> omega

theorem WindowValues.storedY_lt {y : Nat} (h : y < v.height) : v.storedY y < v.height := Nat.mod_lt _ (by omega)

/-- Two numbers below the modulus that agree after the same shift are equal. -/
theorem add_mod_inj {a b k m : Nat} (ha : a < m) (hb : b < m) (h : (a + k) % m = (b + k) % m) : a = b := by
  have := Nat.ModEq.add_right_cancel' k h
  rwa [Nat.ModEq, Nat.mod_eq_of_lt ha, Nat.mod_eq_of_lt hb] at this

theorem WindowValues.storedY_inj {y y' : Nat} (h : y < v.height) (h' : y' < v.height) (heq : v.storedY y = v.storedY y') :
    y = y' := by
  unfold WindowValues.storedY at heq
  split at heq
  · have := add_mod_inj (by omega) (by omega) heq
    omega
  · exact add_mod_inj h h' heq

/-- Distinct numbers below a bound that stay below it take every value below it. -/
theorem exists_of_injective {f : Nat → Nat} {n : Nat} (hf : ∀ x < n, f x < n)
    (hi : ∀ x < n, ∀ y < n, f x = f y → x = y) {k : Nat} (hk : k < n) : ∃ x < n, f x = k := by
  have hinj : Function.Injective fun x : Fin n => (⟨f x, hf x x.isLt⟩ : Fin n) := fun x y h =>
    Fin.ext (hi x x.isLt y y.isLt (congrArg Fin.val h))
  obtain ⟨x, hx⟩ := Finite.injective_iff_surjective.mp hinj ⟨k, hk⟩
  exact ⟨x, x.isLt, congrArg Fin.val hx⟩

/-! ### Lanes of a pixel (R10) -/

theorem StoredFormat.bits_eq (f : StoredFormat) : f.bits = 4 * f.lanes ∧ 1 ≤ f.lanes ∧ f.lanes ≤ 8 := by
  cases f <;> decide

/-- A stored row's lanes lie in its words (R10, R23). -/
theorem WindowValues.lane_in_row (h : v.inRange = true) {sx i : Nat} (hx : sx < v.width) (hi : i < v.storedFormat.lanes) :
    (sx * v.storedFormat.lanes + i) / 8 < v.pitch := by
  obtain ⟨hb, _, _⟩ := v.storedFormat.bits_eq
  have hp : leastPitch v.width v.storedFormat ≤ v.pitch := by
    simp only [WindowValues.inRange, Bool.and_eq_true, decide_eq_true_eq] at h
    omega
  have hlt : sx * v.storedFormat.lanes + i < v.width * v.storedFormat.lanes := by
    calc sx * v.storedFormat.lanes + i < (sx + 1) * v.storedFormat.lanes := by rw [Nat.add_one_mul]; omega
      _ ≤ v.width * v.storedFormat.lanes := Nat.mul_le_mul_right _ hx
  unfold leastPitch at hp
  rw [hb, Nat.mul_left_comm] at hp
  omega

theorem WindowValues.memBase_mod_of_inRange (h : v.inRange = true) : v.memBase % 4 = 0 := by
  simp only [WindowValues.inRange, Bool.and_eq_true, beq_iff_eq] at h
  omega

theorem WindowValues.pixelLane_eq (v : WindowValues) (x y i : Nat) : v.pixelLane x y i
    = (v.memBase + 4 * (v.storedY y * v.pitch + (v.storedX x * v.storedFormat.lanes + i) / 8),
      ⟨(v.storedX x * v.storedFormat.lanes + i) % 8, Nat.mod_lt _ (by decide)⟩) := by
  simp only [WindowValues.pixelLane, WindowValues.laneAt, Prod.mk.injEq, and_true]
  ring

/-- Each lane of a pixel lies in the window's footprint (R10, R24). -/
theorem WindowValues.pixelLane_bounds (h : v.inRange = true) {x y i : Nat} (hx : x < v.width) (hy : y < v.height)
    (hi : i < v.storedFormat.lanes) : (v.pixelLane x y i).1 % 4 = 0 ∧ v.memBase ≤ (v.pixelLane x y i).1
      ∧ (v.pixelLane x y i).1 + 4 ≤ v.memBase + v.height * v.pitch * 4 := by
  have hb := WindowValues.memBase_mod_of_inRange h
  have hq := WindowValues.lane_in_row h (WindowValues.storedX_lt hx) hi
  have hrow : v.storedY y * v.pitch + v.pitch ≤ v.height * v.pitch := by
    rw [← Nat.add_one_mul]
    exact Nat.mul_le_mul_right _ (WindowValues.storedY_lt hy)
  rw [WindowValues.pixelLane_eq]
  simp only
  omega

/-- Two places of the same lane are the same pixel and the same lane of it (R10, R41). -/
theorem WindowValues.pixelLane_inj (h : v.inRange = true) {x y i x' y' i' : Nat} (hx : x < v.width) (hy : y < v.height)
    (hi : i < v.storedFormat.lanes) (hx' : x' < v.width) (hy' : y' < v.height) (hi' : i' < v.storedFormat.lanes)
    (heq : v.pixelLane x y i = v.pixelLane x' y' i') : x = x' ∧ y = y' ∧ i = i' := by
  have hq := WindowValues.lane_in_row h (WindowValues.storedX_lt hx) hi
  have hq' := WindowValues.lane_in_row h (WindowValues.storedX_lt hx') hi'
  rw [WindowValues.pixelLane_eq, WindowValues.pixelLane_eq] at heq
  obtain ⟨hw, hl⟩ := Prod.mk.inj heq
  have hl := congrArg Fin.val hl
  simp only at hl
  have hw : v.pitch * v.storedY y + (v.storedX x * v.storedFormat.lanes + i) / 8
      = v.pitch * v.storedY y' + (v.storedX x' * v.storedFormat.lanes + i') / 8 := by
    rw [Nat.mul_comm v.pitch, Nat.mul_comm v.pitch]
    omega
  have hpitch : 0 < v.pitch := by omega
  have hrow : v.storedY y = v.storedY y' := by
    have := congrArg (· / v.pitch) hw
    simpa only [Nat.mul_add_div hpitch, Nat.div_eq_of_lt hq, Nat.div_eq_of_lt hq', Nat.add_zero] using this
  rw [hrow] at hw
  have hlane : v.storedFormat.lanes * v.storedX x + i = v.storedFormat.lanes * v.storedX x' + i' := by
    rw [Nat.mul_comm v.storedFormat.lanes, Nat.mul_comm v.storedFormat.lanes]
    omega
  have hcol : v.storedX x = v.storedX x' := by
    have := congrArg (· / v.storedFormat.lanes) hlane
    simpa only [Nat.mul_add_div (Nat.zero_lt_of_lt hi), Nat.div_eq_of_lt hi, Nat.div_eq_of_lt hi', Nat.add_zero] using this
  rw [hcol] at hlane
  exact ⟨WindowValues.storedX_inj hx hx' hcol, WindowValues.storedY_inj hy hy' hrow, Nat.add_left_cancel hlane⟩

/-- The words of a pixel are those of its lanes: one, or two where it straddles (R11, R103). -/
theorem WindowValues.mem_pixelWords {x y a : Nat} :
    a ∈ v.pixelWords x y ↔ ∃ i < v.storedFormat.lanes, a = (v.pixelLane x y i).1 := by
  obtain ⟨_, h1, h8⟩ := v.storedFormat.bits_eq
  have hends : a ∈ v.pixelWords x y
      ↔ a = (v.pixelLane x y 0).1 ∨ a = (v.pixelLane x y (v.storedFormat.lanes - 1)).1 := by
    unfold WindowValues.pixelWords
    simp only
    split
    · rename_i h
      rw [← h, or_self, List.mem_singleton]
    · simp
  rw [hends]
  constructor
  · rintro (rfl | rfl)
    · exact ⟨0, by omega, rfl⟩
    · exact ⟨_, by omega, rfl⟩
  · rintro ⟨i, hi, rfl⟩
    simp only [WindowValues.pixelLane_eq]
    omega

theorem WindowValues.pixelWords_pairwise (v : WindowValues) (x y : Nat) : (v.pixelWords x y).Pairwise (· < ·) := by
  unfold WindowValues.pixelWords
  simp only
  split
  · exact List.pairwise_singleton _ _
  · rename_i h
    simp only [WindowValues.pixelLane_eq] at h ⊢
    simp only [List.pairwise_cons, List.mem_singleton, forall_eq, List.not_mem_nil, false_imp_iff, implies_true, List.Pairwise.nil,
      and_true]
    omega

end


/-! ### What a window beat applies, hands over and answers (R149, R152) -/

theorem HostFormat.perBeat_eq (f : HostFormat) : f.perBeat = 4 / f.bytes := by cases f <;> rfl

theorem partlyEnabled_iff {f : HostFormat} {enables : BitVec 4} : partlyEnabled f enables = true
    ↔ ∃ k < 4 / f.bytes, (∃ j < f.bytes, enables.getLsbD (f.bytes * k + j) = true)
      ∧ ∃ j < f.bytes, ¬ enables.getLsbD (f.bytes * k + j) = true := by
  simp [partlyEnabled, pixelEnables, f.perBeat_eq]

theorem Carried.mem_applied_iff {c : Carried} {b : WriteBeat} {k : Nat} : k ∈ c.applied b
    ↔ k < 4 / c.values.hostFormat.bytes
      ∧ (∀ j < c.values.hostFormat.bytes, b.enables.getLsbD (c.values.hostFormat.bytes * k + j) = true)
      ∧ (∀ r ∈ c.values.clip, r.x0 ≤ c.x + k ∧ c.x + k ≤ r.x1 ∧ r.y0 ≤ c.y ∧ c.y ≤ r.y1)
      ∧ ∀ key ∈ c.values.key, equalsKey c.values.hostFormat key (beatPixel c.values.hostFormat b.data k) = false := by
  rw [Carried.applied, List.mem_filter, List.mem_range, HostFormat.perBeat_eq]
  simp only [Carried.applies, pixelEnables, Bool.and_eq_true, Bool.not_eq_true', and_assoc, Rect.holds]
  refine and_congr_right fun _ => and_congr ?_ (and_congr ?_ ?_)
  · simp
  · cases c.values.clip <;> simp [and_assoc]
  · cases c.values.key <;> simp

theorem Carried.mem_lanes {c : Carried} {b : WriteBeat} {l : LaneWrite} : l ∈ c.lanes b
    ↔ ∃ k ∈ c.applied b, ∃ i < c.values.storedFormat.lanes, (l.word, l.lane) = c.values.pixelLane (c.x + k) c.y i
      ∧ l.bits = BitVec.ofNat 4 (toStored c.values (beatPixel c.values.hostFormat b.data k) / 16 ^ i) := by
  obtain ⟨word, lane, bits⟩ := l
  simp only [Carried.lanes, WindowValues.pixelLanes, List.mem_flatMap, List.mem_map, List.mem_range, LaneWrite.mk.injEq,
    Prod.ext_iff]
  exact ⟨fun ⟨k, hk, i, hi, h1, h2, h3⟩ => ⟨k, hk, i, hi, ⟨h1.symm, h2.symm⟩, h3.symm⟩,
    fun ⟨k, hk, i, hi, ⟨h1, h2⟩, h3⟩ => ⟨k, hk, i, hi, h1.symm, h2.symm, h3.symm⟩⟩

/-- The run goes from the lowest to the highest applied pixel (R77). -/
theorem Carried.run_of_ends {c : Carried} {b : WriteBeat} {low high : Nat} (hl : low ∈ c.applied b) (hh : high ∈ c.applied b)
    (h : ∀ k ∈ c.applied b, low ≤ k ∧ k ≤ high) : c.run b = ⟨c.x + low, c.y, c.x + high, c.y⟩ := by
  obtain ⟨hhead, hlast, hall⟩ := Carried.applied_ends (List.ne_nil_of_mem hl)
  rw [Carried.run, Nat.le_antisymm (hall low hl).1 (h _ hhead).1, Nat.le_antisymm (h _ hlast).2 (hall high hh).2]

theorem Carried.mem_words {c : Carried} {a : Nat} : a ∈ c.words
    ↔ ∃ k < 4 / c.values.hostFormat.bytes, ∃ i < c.values.storedFormat.lanes,
      a = (c.values.pixelLane (c.x + k) c.y i).1 := by
  simp only [Carried.words, (distinctWords_spec _).2, List.mem_flatMap, List.mem_range, HostFormat.perBeat_eq,
    WindowValues.mem_pixelWords]

/-! ### Digits -/

/-- Digit k of a number written in a base. -/
theorem ofDigits_digit {b k : Nat} {l : List Nat} (hl : ∀ d ∈ l, d < b) (hk : k < l.length) :
    Nat.ofDigits b l / b ^ k % b = l[k] := by
  have hb : 0 < b := Nat.zero_lt_of_lt (hl _ (List.getElem_mem hk))
  rw [Nat.ofDigits_div_pow_eq_ofDigits_drop k hb l hl, List.drop_eq_getElem_cons hk, Nat.ofDigits_cons]
  simp [Nat.mod_eq_of_lt (hl _ (List.getElem_mem hk))]

/-- A channel's value fits its depth. -/
def Channel.fits (c : Channel) : Prop := 1 ≤ c.depth ∧ c.value < 2 ^ c.depth

theorem Channel.fits.to_lt {c : Channel} (h : c.fits) (d : Nat) : c.to d < 2 ^ d := convertDepth_lt h.1 h.2 d

/-- Each channel of the pixel fits its depth. -/
def Pixel.fits : Pixel → Prop
  | .grey g => g.fits
  | .colour r g b => r.fits ∧ g.fits ∧ b.fits

theorem Pixel.fits.lt {p : Pixel} (h : p.fits) (d : Nat) : p.red d < 2 ^ d ∧ p.green d < 2 ^ d ∧ p.blue d < 2 ^ d := by
  cases p with
  | grey g => exact ⟨Channel.fits.to_lt h d, Channel.fits.to_lt h d, Channel.fits.to_lt h d⟩
  | colour r g b =>
    obtain ⟨hr, hg, hb⟩ := h
    exact ⟨hr.to_lt d, hg.to_lt d, hb.to_lt d⟩

theorem Pixel.fits.luma_lt {p : Pixel} (h : p.fits) (d : Nat) : p.luma d < 2 ^ d := by
  cases p with
  | grey g => exact Channel.fits.to_lt h d
  | colour r g b =>
    obtain ⟨hr, hg, hb⟩ := h
    have hr := hr.to_lt 8
    have hg := hg.to_lt 8
    have hb := hb.to_lt 8
    exact convertDepth_lt (by decide) (by omega) d

theorem storedChannels_fits (f : StoredFormat) (o : ChannelOrder) (v : Nat) : (storedChannels f o v).fits := by
  cases f <;> cases o <;>
    simp only [storedChannels, StoredFormat.depths, Pixel.fits, Channel.fits, Nat.reducePow] <;> omega

/-- A pixel read fits its bytes (R7). -/
theorem toHost_lt (v : WindowValues) (p : Nat) : toHost v p < 256 ^ v.hostFormat.bytes := by
  have h := storedChannels_fits v.storedFormat v.order p
  unfold toHost
  generalize storedChannels v.storedFormat v.order p = c at h
  cases v.hostFormat with
  | h8 => exact h.luma_lt 8
  | h16 =>
    have h5 := h.lt 5
    have h6 := h.lt 6
    simp only [hostValue, HostFormat.bytes]
    omega
  | h32 =>
    have h8 := h.lt 8
    simp only [hostValue, HostFormat.bytes]
    omega

/-- Pixel k of a beat's data is the k-th of the pixels it was made of (R152). -/
theorem beatData_pixel {f : HostFormat} {pixels : List Nat} (hp : ∀ p ∈ pixels, p < 256 ^ f.bytes)
    (hl : pixels.length = f.perBeat) {k : Nat} (hk : k < pixels.length) :
    (beatData f pixels).toNat / 256 ^ (f.bytes * k) % 256 ^ f.bytes = pixels[k] := by
  have hfold : pixels.foldr (fun p rest => p + 256 ^ f.bytes * rest) 0 = Nat.ofDigits (256 ^ f.bytes) pixels :=
    (Nat.ofDigits_eq_foldr ..).symm
  have hlt : Nat.ofDigits (256 ^ f.bytes) pixels < 2 ^ 32 := by
    have := Nat.ofDigits_lt_base_pow_length (b := 256 ^ f.bytes) (by cases f <;> decide) hp
    rw [hl, ← Nat.pow_mul, Nat.mul_comm, f.perBeat_bytes] at this
    exact this
  rw [beatData, BitVec.toNat_ofNat, hfold, Nat.mod_eq_of_lt hlt, Nat.pow_mul]
  exact ofDigits_digit hp hk

/-- Pixel k of a read beat's data (R7, R152). -/
theorem Carried.data_pixel {c : Carried} {words : List (Nat × Word)} {k : Nat} (hk : k < 4 / c.values.hostFormat.bytes) :
    (c.data words).toNat / 256 ^ (c.values.hostFormat.bytes * k) % 256 ^ c.values.hostFormat.bytes
      = toHost c.values (c.values.pixelFrom words (c.x + k) c.y) := by
  rw [← HostFormat.perBeat_eq] at hk
  rw [Carried.data, beatData_pixel ?_ (by simp) (by simpa using hk)]
  · simp
  · intro p hp
    obtain ⟨j, _, rfl⟩ := List.mem_map.mp hp
    exact toHost_lt ..

theorem wordAmong_of_lookup {words : List (Nat × Word)} {a : Nat} {w : Word} (h : words.lookup a = some w) :
    wordAmong words a = w := by
  induction words with
  | nil => cases h
  | cons p words ih =>
    obtain ⟨b, u⟩ := p
    unfold wordAmong
    by_cases hb : b = a
    · rw [if_pos hb]
      rw [hb, List.lookup_cons_self] at h
      exact Option.some.inj h
    · rw [if_neg hb]
      rw [List.lookup_cons, show (a == b) = false by simpa using Ne.symm hb] at h
      exact ih h

/-- Lane i of a pixel joined from words read (R7, R10). -/
theorem WindowValues.pixelFrom_lane (v : WindowValues) (words : List (Nat × Word)) (x y : Nat) {i : Nat}
    (hi : i < v.storedFormat.lanes) : v.pixelFrom words x y / 16 ^ i % 16
      = (laneOf (wordAmong words (v.pixelLane x y i).1) (v.pixelLane x y i).2).toNat := by
  let lane : Nat → Nat := fun i => (laneOf (wordAmong words (v.pixelLane x y i).1) (v.pixelLane x y i).2).toNat
  have hfold : v.pixelFrom words x y = Nat.ofDigits 16 ((List.range v.storedFormat.lanes).map lane) := by
    rw [Nat.ofDigits_eq_foldr, List.foldr_map]
    rfl
  have hall : ∀ d ∈ (List.range v.storedFormat.lanes).map lane, d < 16 := by
    intro d hd
    obtain ⟨j, _, rfl⟩ := List.mem_map.mp hd
    exact BitVec.isLt _
  rw [hfold, ofDigits_digit hall (by simpa using hi)]
  simp [lane]

/-- Settles O51. -/
theorem pixelPlacement : Obligations.PixelPlacement := by
  refine ⟨laneOf_toNat, fun a b => ⟨bypassLanes_nodup a b, fun l => ?_⟩,
    fun v x y _ _ _ => ⟨v.pixelWords_pairwise x y, fun a => WindowValues.mem_pixelWords⟩,
    fun v h => ⟨?_, ?_, fun x y i hx hy hi => ?_⟩,
    fun c b => ⟨partlyEnabled_iff, fun k => Carried.mem_applied_iff, fun l => Carried.mem_lanes,
      fun low high => Carried.run_of_ends⟩,
    fun c words => ⟨(distinctWords_spec _).1, fun a => Carried.mem_words, fun k hk => ⟨Carried.data_pixel hk, fun i hi w hw => ?_⟩⟩⟩
  · rw [mem_bypassLanes]
    constructor
    · rintro ⟨hk, hw, hb⟩
      have := l.lane.isLt
      exact ⟨hw, l.lane.val / 2, by omega, hk, by omega, by rw [hb, laneOf_toNat]⟩
    · rintro ⟨hw, k, _, hk, hl, hb⟩
      have : l.lane.val / 2 = k := by omega
      exact ⟨this ▸ hk, hw, BitVec.eq_of_toNat_eq (by rw [hb, laneOf_toNat])⟩
  · exact fun sx => exists_of_injective (fun _ => WindowValues.storedX_lt) (fun _ hx _ => WindowValues.storedX_inj hx)
  · exact fun sy => exists_of_injective (fun _ => WindowValues.storedY_lt) (fun _ hy _ => WindowValues.storedY_inj hy)
  · obtain ⟨hmod, hbase, hend⟩ := WindowValues.pixelLane_bounds h hx hy hi
    exact ⟨rfl, rfl, WindowValues.storedX_lt hx, WindowValues.storedY_lt hy, rfl,
      WindowValues.lane_in_row h (WindowValues.storedX_lt hx) hi, hmod, hbase, hend,
      fun x' y' i' hx' hy' hi' => WindowValues.pixelLane_inj h hx hy hi hx' hy' hi'⟩
  · rw [WindowValues.pixelFrom_lane _ _ _ _ hi, wordAmong_of_lookup hw]

end Sys2Proof.Machine
end


section
/-!
PROOF. Every memory address in use stays below the configured memory size (R46, R47, R130, R139).
-/

namespace Sys2Proof.Machine

variable {s t : State}

/-! ### The addresses of a state -/

/-- A word address below the configured memory size (R46, R139). -/
def State.wordIn (s : State) (a : Nat) : Prop := a % 4 = 0 ∧ a < s.port.memSize.bytes

/-- The addresses in use, and what a load finds (R139, R179). -/
structure State.Placed (s : State) : Prop where
  windows : ∀ n : Fin 8, ∀ v ∈ (s.window n).values?, v.fitsMemory s.port.memSize = true
  entries : ∀ e ∈ s.merge.entries, s.wordIn e.word
  lanes : ∀ c lanes run, s.host.action = some (.write c lanes run) → ∀ l ∈ lanes, s.wordIn l.word
  access : ∀ a ∈ s.port.access, a.address < s.port.memSize.bytes
  load : s.store.load.isSome = true → (∀ n : Fin 8, s.window n = .unused) ∧ s.merge.entries = []

theorem AddressSound_iff : AddressSound s ↔ s.Placed := by
  unfold AddressSound
  constructor
  · rintro ⟨hw, he, hl, ha, hload⟩
    exact ⟨hw, he, fun c lanes run h => by rw [h] at hl; exact hl, ha, hload⟩
  · rintro ⟨hw, he, hl, ha, hload⟩
    refine ⟨hw, he, ?_, ha, hload⟩
    split
    · exact hl _ _ _ ‹_›
    · trivial
    · trivial

/-- The addresses are those of the table, the queue, the beat in action and the port, and what runs is the store's. -/
theorem State.Placed.congr (h : s.Placed) (hw : t.table.windows = s.table.windows) (hm : t.merge = s.merge)
    (ha : t.host.action = s.host.action) (hp : t.port = s.port) (hl : t.store.load.isSome = true → s.store.load.isSome = true) :
    t.Placed := by
  have hwin (n : Fin 8) : t.window n = s.window n := congrArg (·[n]) hw
  have hin (a : Nat) (h : s.wordIn a) : t.wordIn a := by
    unfold State.wordIn
    rw [hp]
    exact h
  refine ⟨fun n v hv => ?_, fun e he => ?_, fun c lanes run hact l hlm => ?_, fun a hacc => ?_, fun hload => ?_⟩
  · rw [hwin] at hv
    rw [hp]
    exact h.windows n v hv
  · rw [hm] at he
    exact hin _ (h.entries e he)
  · rw [ha] at hact
    exact hin _ (h.lanes c lanes run hact l hlm)
  · rw [hp] at hacc ⊢
    exact h.access a hacc
  · simp only [hwin, hm]
    exact h.load (hl hload)

/-- What the addresses rest on, kept with them. -/
structure Placing (s : State) : Prop where
  table : TableSound s
  host : HostSound s
  operation : OperationSound s
  placed : s.Placed

/-! ### Entries -/

theorem MergeQueue.takeSet_words {q : MergeQueue} {c : Creator} {mark granted : Bool} {lanes : List LaneWrite} {e : Entry}
    (h : e ∈ (q.takeSet c mark granted lanes).entries) :
    (∃ f ∈ q.entries, f.word = e.word) ∨ ∃ l ∈ lanes, l.word = e.word := by
  rw [← (beatWords_spec lanes).2]
  unfold MergeQueue.takeSet at h
  generalize beatWords lanes = ws at *
  induction ws generalizing q with
  | nil => exact .inl ⟨e, h, rfl⟩
  | cons a ws ih =>
    rcases ih h with ⟨f, hf, hw⟩ | hw
    · unfold MergeQueue.takeWord at hf
      split at hf
      · rcases mem_modifyFirst hf with hf | ⟨g, hg, _, rfl⟩
        · exact .inl ⟨f, hf, hw⟩
        · exact .inl ⟨g, hg, hw⟩
      · rcases List.mem_append.mp hf with hf | hf
        · exact .inl ⟨f, hf, hw⟩
        · obtain rfl := List.mem_singleton.mp hf
          exact .inr (hw ▸ List.mem_cons_self)
    · exact .inr (List.mem_cons_of_mem _ hw)

/-- A move of the queue holds the words it held, and those of a lane set it takes. -/
theorem MergeMove.words {q : MergeQueue} (h : MergeMove s q) {e : Entry} (he : e ∈ q.entries) :
    (∃ f ∈ s.merge.entries, f.word = e.word)
    ∨ ∃ c lanes run, s.host.action = some (.write c lanes run) ∧ ∃ l ∈ lanes, l.word = e.word := by
  have of_map {f : Entry → Entry} (hw : ∀ e, (f e).word = e.word) (he : e ∈ s.merge.entries.map f) :
      ∃ f ∈ s.merge.entries, f.word = e.word := by
    obtain ⟨g, hg, rfl⟩ := List.mem_map.mp he
    exact ⟨g, hg, (hw g).symm⟩
  have of_modify {p : Entry → Bool} {f : Entry → Entry} (hw : ∀ e, (f e).word = e.word)
      (he : e ∈ modifyFirst p f s.merge.entries) : ∃ f ∈ s.merge.entries, f.word = e.word := by
    rcases mem_modifyFirst he with he | ⟨g, hg, _, rfl⟩
    · exact ⟨e, he, rfl⟩
    · exact ⟨g, hg, (hw g).symm⟩
  cases h with
  | choose =>
    unfold State.chooseDrain at he
    split at he
    · exact .inl ⟨e, he, rfl⟩
    · exact .inl (of_modify (f := Entry.chosen) (fun _ => rfl) he)
  | take _ _ ha _ =>
    refine (MergeQueue.takeSet_words he).imp id fun h => ⟨_, _, _, ha, h⟩
  | mark p =>
    refine .inl (of_map (f := fun e => if p e then { e with flushMark := true } else e) (fun a => ?_) he)
    split <;> rfl
  | age d => exact .inl (of_map (f := fun e => { e with age := e.age + d }) (fun _ => rfl) he)
  | remove => exact .inl ⟨e, List.mem_of_mem_eraseP he, rfl⟩
  | fetch w => exact .inl (of_modify (f := fun e => e.fetchAnswer w) (fun _ => rfl) he)
  | retry => exact .inl (of_modify (f := Entry.firstTimeout) (fun _ => rfl) he)
  | grant _ _ => exact .inl (of_modify (f := fun e => { e with state := .writing }) (fun _ => rfl) he)
  | config _ _ _ => exact .inl ⟨e, he, rfl⟩

/-! ### A decoded write beat -/

theorem WindowValues.fitsMemory_iff {v : WindowValues} {m : MemSize} :
    v.fitsMemory m = true ↔ v.memBase + v.height * v.pitch * 4 ≤ m.bytes := by simp [WindowValues.fitsMemory]

/-- The lanes of a decoded write beat lie in memory (R40, R41, R139). -/
theorem State.DecodesTo.lanes {r : HostRecord} {c : Creator} {lanes : List LaneWrite} {run : Option (Carried × Rect)}
    (h : s.DecodesTo r (.write c lanes run)) (hr : r.sound) (ht : TableSound s) (hp : s.Placed) :
    ∀ l ∈ lanes, s.wordIn l.word := by
  have ha := HostRecord.beat_aligned hr r.outcomes.length
  intro l hl
  cases h with
  | bypass b hd =>
    rw [(mem_bypassLanes.mp hl).2.1]
    exact ⟨ha, State.decode_bypass hd⟩
  | @window c b hd _ =>
    obtain ⟨hw, _⟩ := State.decode_pixels hd
    have hv : c.values ∈ (s.window c.window).values? := by rw [hw]; rfl
    have hrange := (ht.1 c.window c.values hv).1
    have hfit := WindowValues.fitsMemory_iff.mp (hp.windows c.window c.values hv)
    obtain ⟨hx, hy⟩ := State.decode_place hd hrange ha
    obtain ⟨k, hk, i, hi, heq, _⟩ := Carried.mem_lanes.mp hl
    have hk := Carried.mem_applied hk
    obtain ⟨hmod, _, hend⟩ := WindowValues.pixelLane_bounds hrange (x := c.x + k) (by omega) hy hi
    rw [← heq] at hmod hend
    exact ⟨hmod, by simp only at hend; omega⟩

/-! ### What the moves keep -/

theorem Placing.unused (h : Placing s) (hl : s.store.load.isSome = true) (n : Fin 8) : s.window n = .unused :=
  (h.placed.load hl).1 n

/-- While a load runs no insertion, no opening and no lane set comes about. -/
theorem Placing.no_load (h : Placing s) (hn : s.host.writeBeat = true ∨ (s.ready ∧ s.resetOrLoad = false)) :
    ¬ s.store.load.isSome = true := by simp [h.operation.no_load_insert hn]

theorem Placing.merge {q : MergeQueue} (h : Placing s) (hm : MergeMove s q) : State.Placed { s with merge := q } := by
  refine ⟨h.placed.windows, fun e he => ?_, h.placed.lanes, h.placed.access, fun hl => ⟨h.unused hl, ?_⟩⟩
  · rcases hm.words he with ⟨f, hf, hw⟩ | ⟨c, lanes, run, ha, l, hl, hw⟩
    · exact hw ▸ h.placed.entries f hf
    · exact hw ▸ h.placed.lanes c lanes run ha l hl
  · refine List.eq_nil_iff_forall_not_mem.mpr fun e he => ?_
    rcases hm.words he with ⟨f, hf, _⟩ | ⟨c, lanes, run, ha, _⟩
    · rw [(h.placed.load hl).2] at hf
      cases hf
    · exact h.no_load (.inl (by simp [HostPort.writeBeat, ha])) hl

theorem Placing.port {p : MemoryPort} (h : Placing s) (hm : PortMove s p) : State.Placed { s with port := p } := by
  cases hm with
  | grant _ hlt _ _ => exact ⟨h.placed.windows, h.placed.entries, h.placed.lanes, by rintro _ ⟨⟩; exact hlt, h.placed.load⟩
  | free _ => exact ⟨h.placed.windows, h.placed.entries, h.placed.lanes, by rintro _ ⟨⟩, h.placed.load⟩
  | tick =>
    refine ⟨h.placed.windows, h.placed.entries, h.placed.lanes, fun a ha => ?_, h.placed.load⟩
    obtain ⟨b, hb, rfl⟩ := Option.map_eq_some_iff.mp ha
    exact h.placed.access b hb

theorem Placing.hostPort {p : HostPort} (h : Placing s) (hm : HostMove s p) : State.Placed { s with host := p } := by
  refine ⟨h.placed.windows, h.placed.entries, fun c lanes run ha => ?_, h.placed.access, h.placed.load⟩
  cases hm with
  | finish o => cases ha
  | @decode r _ _ hr =>
    rcases s.decodeBeat_cases r with ⟨o, heq⟩ | ⟨x, heq, hx⟩
    · rw [heq] at ha
      cases ha
    · rw [heq] at ha
      obtain rfl := Option.some.inj ha
      exact hx.lanes (h.host.2.1 r (List.mem_of_find?_eq_some hr)) h.table h.placed
  | join _ _ => cases ha
  | enqueue _ _ _ => exact h.placed.lanes c lanes run ha
  | answer _ _ _ => exact h.placed.lanes c lanes run ha

/-- A window is replaced by one within the memory, and not while a load runs. -/
theorem Placing.setWindow {n : Fin 8} {w : Window} (h : Placing s) (hw : ∀ v ∈ w.values?, v.fitsMemory s.port.memSize = true)
    (hl : s.store.load.isSome = true → w = .unused) : (s.setWindow n w).Placed := by
  refine ⟨fun m v hv => ?_, h.placed.entries, h.placed.lanes, h.placed.access, fun hs => ⟨fun m => ?_, (h.placed.load hs).2⟩⟩
  · rw [State.window_setWindow] at hv
    split at hv
    · exact hw v hv
    · exact h.placed.windows m v hv
  · rw [State.window_setWindow]
    split
    · exact hl hs
    · exact h.unused hs m

theorem Placing.tableMove {b : Table} (h : Placing s) (hm : TableMove s b) : State.Placed { s with table := b } := by
  have used {n : Fin 8} {v : WindowValues} (hv : s.window n = .active v) : ¬ s.store.load.isSome = true := fun hl => by
    rw [h.unused hl n] at hv
    cases hv
  have fits {n : Fin 8} {v : WindowValues} (hv : s.window n = .active v) : v.fitsMemory s.port.memSize = true :=
    h.placed.windows n v (by rw [hv]; rfl)
  cases hm with
  | stage _ => exact h.placed.congr rfl rfl rfl rfl id
  | opens hr hn _ ho =>
    refine h.setWindow ?_ fun hl => absurd hl (h.no_load (.inr ⟨hr, hn⟩))
    rintro _ ⟨⟩
    exact (openChecks_ok.mp ho).2.1
  | change hv hk =>
    refine h.setWindow ?_ fun hl => absurd hl (used hv)
    have hfit := fits hv
    rintro _ ⟨⟩
    rw [hk.1]
    exact hfit
  | drain hv _ =>
    refine h.setWindow ?_ fun hl => absurd hl (used hv)
    rintro _ ⟨⟩
    exact fits hv

/-- An operation of the streamer leaves the addresses alone: an abandoned access keeps its own. -/
theorem Placing.stream (h : Placing s) (hm : StreamFrame s t) : t.Placed := by
  obtain ⟨heq, hport, hacc, _⟩ := hm
  have hmem : t.port.memSize = s.port.memSize := by rw [hport]
  have haccess : ∀ a ∈ t.port.access, a.address < s.port.memSize.bytes := by
    intro a ha
    rcases hacc with hacc | hacc <;> rw [hacc] at ha
    · exact h.placed.access a ha
    · obtain ⟨b, hb, rfl⟩ := Option.map_eq_some_iff.mp ha
      have := h.placed.access b hb
      unfold Access.abandonStream
      split <;> exact this
  rw [heq]
  exact ⟨fun n v hv => (congrArg v.fitsMemory hmem).trans (h.placed.windows n v hv),
    fun e he => ⟨(h.placed.entries e he).1, lt_of_lt_of_eq (h.placed.entries e he).2 (congrArg MemSize.bytes hmem).symm⟩,
    fun c lanes run ha l hl => ⟨(h.placed.lanes c lanes run ha l hl).1,
      lt_of_lt_of_eq (h.placed.lanes c lanes run ha l hl).2 (congrArg MemSize.bytes hmem).symm⟩,
    fun a ha => lt_of_lt_of_eq (haccess a ha) (congrArg MemSize.bytes hmem).symm, h.placed.load⟩

/-- A load starts over unused windows and an empty queue (R179); every other operation leaves a load that runs alone. -/
theorem Placing.operationMove (h : Placing s) (hm : OperationMove s t) : t.Placed := by
  have hload : t.store.load.isSome = true → (∀ n : Fin 8, s.window n = .unused) ∧ s.merge.entries = [] := by
    cases hm with
    | resetTaken _ _ _ => exact fun h => absurd h Bool.false_ne_true
    | loadTaken _ _ hq =>
      intro _
      simp only [State.quietForLoad, Bool.and_eq_true, List.all_eq_true, beq_iff_eq, List.isEmpty_iff] at hq
      exact ⟨fun n => hq.1.1 _ (Vector.mem_toList_iff.mpr (Vector.getElem_mem n.isLt)), hq.1.2⟩
    | loadMoves _ hl => exact fun _ => h.placed.load (by rw [hl]; rfl)
    | loadFails _ => exact fun h => absurd h Bool.false_ne_true
    | _ => exact h.placed.load
  rw [hm.frame]
  exact ⟨h.placed.windows, h.placed.entries, h.placed.lanes, h.placed.access, hload⟩

theorem Placing.phases4to7 (h : Placing s) (hm : s.merge.entries = []) : s.phases4to7.Placed := by
  have placed (u : State) (hu : Placing u) (he : u.merge.entries = []) : u.phase7Start.Placed := by
    have hn (n : Fin 8) : u.phase7Start.window n = .unused := by simp [State.window, State.phase7Start]
    refine ⟨fun n v hv => ?_, hu.placed.entries, hu.placed.lanes, hu.placed.access, fun _ => ⟨hn, he⟩⟩
    rw [hn n] at hv
    cases hv
  unfold State.phases4to7
  split
  · exact placed _ ⟨h.table, h.host, h.operation, h.stream s.abortRegion_frame⟩ hm
  · exact placed _ h hm

theorem Move.keeps_placing (h : Move s t) (hs : Placing s) : Placing t := by
  refine ⟨h.keeps_table hs.table, h.keeps_host hs.host, h.keeps_operation hs.operation, ?_⟩
  cases h with
  | merge h => exact hs.merge h
  | port h => exact hs.port h
  | host h => exact hs.hostPort h
  | table h => exact hs.tableMove h
  | stream h => exact hs.stream h.frame
  | operation h => exact hs.operationMove h
  | @closeEnds n _ _ =>
    exact (hs.setWindow (n := n) (w := .unused) (by rintro _ ⟨⟩) fun _ => rfl).congr rfl rfl rfl rfl id
  | phase3Ends _ he => exact hs.phases4to7 he
  | settings o hl ha _ =>
    have hload : s.store.load.isSome = true := by rw [hl]; rfl
    obtain ⟨hu, he⟩ := hs.placed.load hload
    refine ⟨fun n v hv => ?_, fun e hm => ?_, fun c lanes run hact => ?_, fun a hm => ?_, hs.placed.load⟩
    · have hv : v ∈ (s.window n).values? := hv
      rw [hu n] at hv
      cases hv
    · have hm : e ∈ s.merge.entries := hm
      rw [he] at hm
      cases hm
    · have hact : s.host.action = some (.write c lanes run) := hact
      exact absurd hload (hs.no_load (.inl (by simp [HostPort.writeBeat, hact])))
    · have hm : a ∈ s.port.access := hm
      rw [ha] at hm
      cases hm
  | events _ | free _ | link _ => exact hs.placed.congr rfl rfl rfl rfl id

theorem MarkMove.load (h : MarkMove s t) : t.store.load = s.store.load := by
  cases h with
  | @writeEnds w p failed _ hp =>
    have hstore := s.endProgramming_programming w failed
    rw [hp] at hstore
    exact hstore.2
  | _ => rfl

theorem Placing.acts (hs : Placing s) (h : Acts s t) : Placing t :=
  h.keeps (fun u v hm hu => by
    have hload := hm.load
    refine ⟨?_, ?_, hu.operation.mark hm, hu.placed.congr ?_ ?_ ?_ ?_ (by rw [hload]; exact id)⟩
    · rw [hm.frame]; exact hu.table
    · rw [hm.frame]; exact hu.host
    all_goals rw [hm.frame]) (fun _ _ => Move.keeps_placing) hs

/-- The windows that a load opens lie in the memory (R24, R206). -/
theorem Opens.fits (h : Opens s t) (hs : ∀ n : Fin 8, ∀ v ∈ (s.window n).values?, v.fitsMemory s.port.memSize = true) :
    ∀ n : Fin 8, ∀ v ∈ (t.window n).values?, v.fitsMemory t.port.memSize = true := by
  refine h.keeps (P := fun u => ∀ n : Fin 8, ∀ v ∈ (u.window n).values?, v.fitsMemory u.port.memSize = true)
    (fun _ _ h => h) (fun u n v d ho hu m w hw => ?_) hs
  rw [State.window_setWindow] at hw
  split at hw
  · obtain rfl := Option.some.inj hw
    exact (openChecks_ok.mp ho).2.1
  · exact hu m w hw

theorem Placing.loaded {kind : LoadKind} {image : Option (Fin 4)} (hs : Placing s)
    (h : s.store.load = some ⟨kind, .applying image⟩) (ha : s.port.access = none) :
    State.Placed ((s.loadImage image).endLoad kind image) := by
  obtain ⟨u, w, hu, _, _, _, _, _, _, hw, heq⟩ := loaded_cases h ha
  have hp := (hs.acts (.of_moves hu)).placed
  have hfits := hw.fits hp.windows
  obtain ⟨r, ev, hend⟩ := w.endLoad_eq kind image
  obtain ⟨ws, ev', hframe⟩ := hw.frame
  rw [heq, hend]
  rw [hframe] at hfits ⊢
  exact ⟨hfits, hp.entries, hp.lanes, hp.access, fun h => absurd h Bool.false_ne_true⟩

theorem State.Placed.restart (s : State) (asel : Bool) : (s.restart asel).Placed := by
  have hn (n : Fin 8) : (s.restart asel).window n = .unused := by
    rw [State.window, show (s.restart asel).table = Table.atReset from rfl]
    simp [Table.atReset]
  have hm : (s.restart asel).merge = .atReset := rfl
  have hh : (s.restart asel).host = .atReset := rfl
  have hp : (s.restart asel).port = .atReset := rfl
  refine ⟨fun n v hv => ?_, ?_, ?_, ?_, fun _ => ⟨hn, by rw [hm]; rfl⟩⟩
  · rw [hn] at hv
    cases hv
  · intro e he
    rw [hm] at he
    cases he
  · intro c lanes run ha
    rw [hh] at ha
    cases ha
  · intro a ha
    rw [hp] at ha
    cases ha

theorem AddressSound.step (h : step s = .next t) (ht : TableSound s) (hh : HostSound s) (ho : OperationSound s)
    (hs : AddressSound s) : AddressSound t := by
  rw [AddressSound_iff] at *
  have hs : Placing { s with pending := s.pending.tail } := ⟨ht, hh, ho, hs.congr rfl rfl rfl rfl id⟩
  cases step_reaches h with
  | acts hu => exact (hs.acts hu).placed
  | replied d hu => exact (hs.acts hu).placed.congr rfl rfl rfl rfl id
  | armed k => exact hs.placed.congr rfl rfl rfl rfl id
  | restarted asel => exact .restart _ asel
  | loaded hl ha => exact hs.loaded hl ha

/-- Settles O53. The queue's moves keep it sound; every command makes the drain choice anew, or leaves the drain slot taken, or
changes nothing that makes an entry choosable; and the addresses come from windows within the memory and from decoded beats. -/
theorem mergeQueueStaysSound : Obligations.MergeQueueStaysSound :=
  fun _ _ h => ⟨MergeSound.step h, DrainChosen.step h, AddressSound.step h⟩

end Sys2Proof.Machine
end


section
/-!
PROOF. The step, the completion of every command, and the reset values.
-/

namespace Sys2Proof.Machine

variable {s t : State}

/-! ### The step -/

/-- No timer runs out in the next microsecond: the timers advance, and nothing else is due (R107, R129). -/
theorem State.expire_quiet (ha : s.accessExpired = false) (hb : s.answerExpired = false) : s.expire = s := by
  have haccess : s.expireAccess = s := by
    unfold State.expireAccess
    split
    · rename_i a h
      have : ¬ a.limit ≤ a.timer := by simpa [State.accessExpired, h] using ha
      rw [if_neg this]
    · rfl
  have hanswer : s.expireAnswer = s := by simp [State.expireAnswer, hb]
  simp [State.expire, ha, haccess, hanswer]

/-- Settles O1. -/
theorem stepTakesFrontCommand : Obligations.StepTakesFrontCommand := by
  refine ⟨fun _ _ => rfl, fun s hp he ha hb => ?_⟩
  have hmerge : s.merge.ageBy 1 = s.merge := by
    unfold MergeQueue.ageBy
    rw [he, List.map_nil, ← he]
  have hadvance : s.advance = { s with
      port := { s.port with access := s.port.access.map fun a => { a with timer := a.timer + 1 } }
      streamer := { s.streamer with answerTimer := s.streamer.answerTimer.map fun t => t + 1 } } := by
    rw [State.advance, hmerge]
  have hempty : s.advance.merge.entries = [] := by
    rw [hadvance]
    exact he
  have haccess : s.advance.accessExpired = false := by
    rw [hadvance]
    cases h : s.port.access with
    | none => simp [State.accessExpired]
    | some a => simpa [State.accessExpired] using ha a h
  have hanswer : s.advance.answerExpired = false := by
    rw [hadvance]
    cases h : s.streamer.answerTimer with
    | none => simp [State.answerExpired]
    | some t => simpa [State.answerExpired] using fun _ => hb t h
  have htick : s.tick = s.advance := by
    rw [State.tick, State.expire_quiet haccess hanswer]
    exact DrainChosen.of_empty hempty
  have hstep : step s = .next s.tick := by rw [step, hp]
  rw [hstep, htick, hadvance]

/-! ### Every command completes -/

theorem Move.pending (h : Move s t) : t.pending = s.pending := by
  cases h with
  | stream h => rw [h.frame.1]
  | operation h => rw [h.frame]
  | phase3Ends _ _ =>
    unfold State.phases4to7
    split <;> rfl
  | _ => rfl

theorem Moves.pending (h : Moves s t) : t.pending = s.pending :=
  h.keeps (P := fun u => u.pending = s.pending) (fun _ _ hm hs => hm.pending.trans hs) rfl

theorem Acts.pending (h : Acts s t) : t.pending = s.pending := by
  obtain ⟨u, rfl | hu, hm⟩ := h
  · exact hm.pending
  · exact hm.pending.trans (by rw [hu.frame])

theorem Reaches.pending (h : Reaches s t) : t.pending = s.pending := by
  cases h with
  | acts h => exact h.pending
  | replied d h => exact h.pending
  | armed k => rfl
  | restarted asel => rfl
  | loaded hl ha =>
    obtain ⟨u, w, _, _, _, _, _, _, hp, hw, heq⟩ := loaded_cases hl ha
    obtain ⟨ws, ev, hw⟩ := hw.frame
    obtain ⟨r, ev', he⟩ := w.endLoad_eq ‹_› ‹_›
    rw [heq, he, hw]
    exact hp

/-- Settles O2. -/
theorem everyCommandCompletes : Obligations.EveryCommandCompletes := fun c s => by
  obtain ⟨t, ht, hr⟩ := exec_reaches c s
  exact ⟨t, ht, hr.pending⟩

/-! ### Reset -/

/-- Settles O4. -/
theorem resetValues : Obligations.ResetValues := by
  refine ⟨fun n => ?_, ?_⟩
  · show (Vector.replicate 8 Window.unused)[n] = _
    simp
  · decide

/-- Settles O5. -/
theorem resetMeetsInvariants : Obligations.ResetMeetsInvariants := by
  refine ⟨⟨by decide, .nil, by decide, nofun, nofun⟩, .of_empty rfl, ⟨by decide, rfl⟩, .of_unused rfl, by decide,
    ⟨rfl, fun n => ?_, nofun⟩, ?_, by decide, ⟨by decide, nofun, ⟨.nil, nofun⟩, trivial⟩, by decide, ?_, by decide⟩
  · have hheld : State.reset.heldState n = .blank := by
      show (Vector.replicate 4 SlotState.blank)[n] = _
      simp
    rw [hheld]
    exact fun i _ _ => rfl
  · exact ⟨rfl, nofun, nofun, ⟨nofun, nofun⟩, nofun, rfl, rfl, rfl⟩
  · have hwindow (n : Fin 8) : State.reset.window n = .unused := resetValues.1 n
    refine ⟨fun n v hv => ?_, nofun, trivial, nofun, fun _ => ⟨hwindow, rfl⟩⟩
    rw [hwindow n] at hv
    cases hv

/-- The marks decide a slot's state in the order of R18. -/
theorem slotMarks_eq (m : List Host.Cell) (n : Fin 4) : slotMarks m n
    = if otpRead m (512 * n.val + 511) ≠ 0xFF then .damaged
      else if otpRead m (512 * n.val + 508) = 0xFF then .blank
      else if otpRead m (512 * n.val + 509) = 0xFF then .damaged
      else if otpRead m (512 * n.val + 510) ≠ 0xFF then .retired
      else .written := by
  simp only [slotMarks, slotAddress, stateOfMarks, Config.slotBytes]
  generalize (0xFF : Byte) = unset
  simp [bne_iff_ne]

/-- Settles O6. -/
theorem resetCommandsResetEveryBlock : Obligations.ResetCommandsResetEveryBlock := by
  refine ⟨slotMarks_eq, fun asel s hp => ⟨rfl, congrArg Host.Outcome.next ?_⟩⟩
  have hint : s.store.interrupted s.freeCount = s.store.otp := by simp [ProfileStore.interrupted, hp]
  simp only [State.restart, hint, hp]
  rfl

end Sys2Proof.Machine
end


section
/-!
PROOF. Frames as bytes (R12, R14, R160, R172 to R179).
-/

namespace Sys2Proof.Machine

/-! ### Integers and rectangles in bytes (R12) -/

theorem le16_bytes (v : BitVec 16) : Decode.le16 (v.extractLsb' 0 8) (v.extractLsb' 8 8) = v :=
  BitVec.extractLsb'_append_extractLsb' (w := 8) (len := 8) (x := v)

theorem bytes_le16 (b0 b1 : Byte) : Decode.le16Bytes (Decode.le16 b0 b1) = [b0, b1] := by
  rw [Decode.le16Bytes, Decode.le16, BitVec.extractLsb'_append_eq_right, BitVec.extractLsb'_append_eq_left]

theorem le32_bytes (v : Word) :
    Decode.le32 (v.extractLsb' 0 8) (v.extractLsb' 8 8) (v.extractLsb' 16 8) (v.extractLsb' 24 8) = v := by
  unfold Decode.le32
  rw [BitVec.extractLsb'_append_extractLsb'_eq_extractLsb' (start₁ := 16) (len₁ := 8) rfl,
    BitVec.extractLsb'_append_extractLsb'_eq_extractLsb' (start₁ := 8) (len₁ := 8) rfl,
    BitVec.extractLsb'_append_extractLsb'_eq_extractLsb' (start₁ := 0) (len₁ := 8) rfl]
  exact BitVec.extractLsb'_eq_self

theorem bytes_le32 (b0 b1 b2 b3 : Byte) : Decode.le32Bytes (Decode.le32 b0 b1 b2 b3) = [b0, b1, b2, b3] := by
  have h1 : (Decode.le32 b0 b1 b2 b3).extractLsb' 8 8 = b1 :=
    (BitVec.extractLsb'_append_eq_of_le (by decide)).trans BitVec.extractLsb'_append_eq_right
  have h2 : (Decode.le32 b0 b1 b2 b3).extractLsb' 16 8 = b2 :=
    (BitVec.extractLsb'_append_eq_of_le (by decide)).trans
      ((BitVec.extractLsb'_append_eq_of_le (by decide)).trans BitVec.extractLsb'_append_eq_right)
  have h3 : (Decode.le32 b0 b1 b2 b3).extractLsb' 24 8 = b3 :=
    (BitVec.extractLsb'_append_eq_of_le (by decide)).trans
      ((BitVec.extractLsb'_append_eq_of_le (by decide)).trans BitVec.extractLsb'_append_eq_left)
  rw [Decode.le32Bytes, h1, h2, h3]
  exact congrArg (fun b => [b, b1, b2, b3]) BitVec.extractLsb'_append_eq_right

/-- A pair's first coordinate from its bytes. -/
theorem pairU_bytes (u v : BitVec 12) :
    Decode.pairU (u.extractLsb' 0 8) (v.extractLsb' 0 4 ++ u.extractLsb' 8 4) = u := by
  rw [Decode.pairU, BitVec.extractLsb'_append_eq_right]
  exact BitVec.extractLsb'_append_extractLsb' (w := 4) (len := 8) (x := u)

theorem pairV_bytes (u v : BitVec 12) :
    Decode.pairV (v.extractLsb' 0 4 ++ u.extractLsb' 8 4) (v.extractLsb' 4 8) = v := by
  rw [Decode.pairV, BitVec.extractLsb'_append_eq_left]
  exact BitVec.extractLsb'_append_extractLsb' (w := 8) (len := 4) (x := v)

theorem bytes_pair (b0 b1 b2 : Byte) : Decode.pairBytes (Decode.pairU b0 b1) (Decode.pairV b1 b2) = [b0, b1, b2] := by
  rw [Decode.pairBytes, Decode.pairU, Decode.pairV, BitVec.extractLsb'_append_eq_right, BitVec.extractLsb'_append_eq_left,
    BitVec.extractLsb'_append_eq_right, BitVec.extractLsb'_append_eq_left]
  exact congrArg (fun b => [b0, b, b2]) (BitVec.extractLsb'_append_extractLsb' (w := 4) (len := 4) (x := b1))

theorem rect_bytes (r : PackedRect) : Decode.rect (r.x0.extractLsb' 0 8) (r.y0.extractLsb' 0 4 ++ r.x0.extractLsb' 8 4)
    (r.y0.extractLsb' 4 8) (r.x1.extractLsb' 0 8) (r.y1.extractLsb' 0 4 ++ r.x1.extractLsb' 8 4) (r.y1.extractLsb' 4 8) = r := by
  simp only [Decode.rect, pairU_bytes, pairV_bytes]

theorem bytes_rect (a0 a1 a2 c0 c1 c2 : Byte) :
    Decode.rectBytes (Decode.rect a0 a1 a2 c0 c1 c2) = [a0, a1, a2, c0, c1, c2] := by
  simp [Decode.rectBytes, Decode.rect, bytes_pair]

/-! ### Commands in frames (R14, R164 to R179) -/

/-- The frame of a well-formed command decodes to it. -/
theorem decodeCommand_encode {i : Instr} {bytes : List Byte} (hw : i.wellFormed = true) (h : encodeFrame i = some bytes) :
    ∃ code params, bytes = code :: params ∧ params.length ≤ 32 ∧ decodeCommand code params = some i := by
  cases i with
  | stageWindow d =>
    have hd : d.length = 32 := by simpa [Instr.wellFormed] using hw
    obtain rfl := Option.some.inj h
    have hdec : decodeCommand 0x10 d = if d.length = 32 then some (.stageWindow d) else none := by rfl
    exact ⟨_, _, rfl, hd.le, hdec.trans (if_pos hd)⟩
  | setScroll n v =>
    obtain rfl := Option.some.inj h
    refine ⟨0x14, _, rfl, by simp [Decode.le16Bytes], ?_⟩
    exact (show _ = some (Instr.setScroll n (Decode.le16 (v.extractLsb' 0 8) (v.extractLsb' 8 8))) by rfl).trans
      (congrArg (fun v => some (Instr.setScroll n v)) (le16_bytes v))
  | setKey n k =>
    cases k with
    | none =>
      obtain rfl := Option.some.inj h
      exact ⟨_, _, rfl, by simp, by rfl⟩
    | some k =>
      obtain rfl := Option.some.inj h
      refine ⟨0x15, _, rfl, by simp [Decode.le32Bytes], ?_⟩
      exact (show _ = some (Instr.setKey n (some (Decode.le32 (k.extractLsb' 0 8) (k.extractLsb' 8 8) (k.extractLsb' 16 8)
        (k.extractLsb' 24 8)))) by rfl).trans (congrArg (fun k => some (Instr.setKey n (some k))) (le32_bytes k))
  | setClip n r =>
    cases r with
    | none =>
      obtain rfl := Option.some.inj h
      exact ⟨_, _, rfl, by simp, by rfl⟩
    | some r =>
      obtain rfl := Option.some.inj h
      refine ⟨0x16, _, rfl, by simp [Decode.rectBytes, Decode.pairBytes], ?_⟩
      exact (show _ = some (Instr.setClip n (some (Decode.rect (r.x0.extractLsb' 0 8)
        (r.y0.extractLsb' 0 4 ++ r.x0.extractLsb' 8 4) (r.y0.extractLsb' 4 8) (r.x1.extractLsb' 0 8)
        (r.y1.extractLsb' 0 4 ++ r.x1.extractLsb' 8 4) (r.y1.extractLsb' 4 8)))) by rfl).trans
        (congrArg (fun r => some (Instr.setClip n (some r))) (rect_bytes r))
  | damageAdd n r =>
    obtain rfl := Option.some.inj h
    refine ⟨0x31, _, rfl, by simp [Decode.rectBytes, Decode.pairBytes], ?_⟩
    exact (show _ = some (Instr.damageAdd n (Decode.rect (r.x0.extractLsb' 0 8)
      (r.y0.extractLsb' 0 4 ++ r.x0.extractLsb' 8 4) (r.y0.extractLsb' 4 8) (r.x1.extractLsb' 0 8)
      (r.y1.extractLsb' 0 4 ++ r.x1.extractLsb' 8 4) (r.y1.extractLsb' 4 8))) by rfl).trans
      (congrArg (fun r => some (Instr.damageAdd n r)) (rect_bytes r))
  | irqMask m =>
    cases m with
    | none | some _ =>
      obtain rfl := Option.some.inj h
      exact ⟨_, _, rfl, by simp, by rfl⟩
  | status | ident | softReset | openWindow _ | closeWindow _ | queryWindow _ | setAccess _ _ | flush _ | queueConfig _ _
  | damageRead | damageClear _ | streamMode _ | streamConfig _ _ _ | streamResume | eventsRead | profileArm _
  | profileWrite | profileRetire | profileLoad _ =>
    obtain rfl := Option.some.inj h
    exact ⟨_, _, rfl, by simp, by rfl⟩
  | powerOn _ | resetPin _ | slotExamination | applyGlobalSettings | brokenFrame | unknownCommandFrame
  | softResetPhase2End | softResetPhase3End | closeDrainComplete | flushComplete | programmingEnd _
  | hostRequestAccept _ | beatDecode | laneArrival | hostAnswerTransfer | entryDue _ | arbiterGrant
  | memoryAnswer _ | accessTimeout | pixelSent | endSent | panelAccept | panelRefuse | answerTimeout | sync
  | abortMessageSent => cases h

/-- The codes of commands. -/
def frameCodes : List Nat :=
  [0x01, 0x02, 0x0F, 0x10, 0x11, 0x12, 0x13, 0x14, 0x15, 0x16, 0x17, 0x20, 0x21, 0x30, 0x31, 0x32, 0x40, 0x41, 0x42, 0x50,
    0x51, 0x60, 0x61, 0x62, 0x63]

/-- Every other code is no command, over the 256 values of a byte (R160). -/
theorem decodeCommand_unknown (code : Byte) : code.toNat ∈ frameCodes ∨ ∀ params, decodeCommand code params = none := by
  have h (k : Nat) (hk : k < 256) : k ∈ frameCodes ∨ ∀ params, decodeCommand (BitVec.ofNat 8 k) params = none := by
    interval_cases k <;> first | exact .inl (by decide) | exact .inr fun _ => by rfl
  have := h code.toNat code.isLt
  rwa [BitVec.ofNat_toNat, BitVec.setWidth_eq] at this

section
variable {code : Byte} {params : List Byte} {i : Instr}

theorem decoded_nullary {j : Instr} (h : decodeCommand code params = some i) (h0 : decodeCommand code [] = some j)
    (h1 : ∀ a p, decodeCommand code (a :: p) = none) : params = [] ∧ i = j := by
  cases params with
  | nil => exact ⟨rfl, Option.some.inj (h.symm.trans h0)⟩
  | cons a p => exact nomatch h.symm.trans (h1 a p)

theorem decoded_unary {j : Byte → Instr} (h : decodeCommand code params = some i)
    (h1 : ∀ a, decodeCommand code [a] = some (j a)) (h0 : decodeCommand code [] = none)
    (h2 : ∀ a b p, decodeCommand code (a :: b :: p) = none) : ∃ a, params = [a] ∧ i = j a := by
  match params with
  | [] => exact nomatch h.symm.trans h0
  | [a] => exact ⟨a, rfl, Option.some.inj (h.symm.trans (h1 a))⟩
  | a :: b :: p => exact nomatch h.symm.trans (h2 a b p)

end

/-- A command is decoded from the frame that it writes. -/
theorem encode_decodeCommand {i : Instr} {code : Byte} {params : List Byte} (h : decodeCommand code params = some i) :
    i.wellFormed = true ∧ encodeFrame i = some (code :: params) := by
  have code_eq {k : Nat} (hk : code.toNat = k) : code = BitVec.ofNat 8 k := by
    rw [← hk, BitVec.ofNat_toNat, BitVec.setWidth_eq]
  have hc : code.toNat ∈ frameCodes := (decodeCommand_unknown code).resolve_right fun hn => nomatch h.symm.trans (hn params)
  simp only [frameCodes, List.mem_cons, List.not_mem_nil, or_false] at hc
  rcases hc with hc | hc | hc | hc | hc | hc | hc | hc | hc | hc | hc | hc | hc | hc | hc | hc | hc | hc | hc | hc |
    hc | hc | hc | hc | hc <;> obtain rfl := code_eq hc
  · obtain ⟨rfl, rfl⟩ := decoded_nullary h (by rfl) fun _ _ => by rfl
    exact ⟨rfl, rfl⟩
  · obtain ⟨rfl, rfl⟩ := decoded_nullary h (by rfl) fun _ _ => by rfl
    exact ⟨rfl, rfl⟩
  · obtain ⟨rfl, rfl⟩ := decoded_nullary h (by rfl) fun _ _ => by rfl
    exact ⟨rfl, rfl⟩
  · have hdec : decodeCommand 0x10 params = if params.length = 32 then some (.stageWindow params) else none := by rfl
    obtain ⟨hl, hi⟩ := Option.ite_none_right_eq_some.mp (hdec.symm.trans h)
    obtain rfl := Option.some.inj hi
    exact ⟨by simpa [Instr.wellFormed] using hl, rfl⟩
  · obtain ⟨a, rfl, rfl⟩ := decoded_unary h (fun _ => by rfl) (by rfl) fun _ _ _ => by rfl
    exact ⟨rfl, rfl⟩
  · obtain ⟨a, rfl, rfl⟩ := decoded_unary h (fun _ => by rfl) (by rfl) fun _ _ _ => by rfl
    exact ⟨rfl, rfl⟩
  · obtain ⟨a, rfl, rfl⟩ := decoded_unary h (fun _ => by rfl) (by rfl) fun _ _ _ => by rfl
    exact ⟨rfl, rfl⟩
  · match params with
    | [n, v0, v1] =>
      obtain rfl := Option.some.inj ((show some (Instr.setScroll n (Decode.le16 v0 v1)) = _ by rfl).trans h)
      exact ⟨rfl, congrArg (fun b => some ([0x14, n] ++ b)) (bytes_le16 v0 v1)⟩
    | [] | [_] | [_, _] | _ :: _ :: _ :: _ :: _ => exact nomatch (show none = _ by rfl).trans h
  · match params with
    | [n] =>
      obtain rfl := Option.some.inj ((show some (Instr.setKey n none) = _ by rfl).trans h)
      exact ⟨rfl, rfl⟩
    | [n, k0, k1, k2, k3] =>
      obtain rfl := Option.some.inj ((show some (Instr.setKey n (some (Decode.le32 k0 k1 k2 k3))) = _ by rfl).trans h)
      exact ⟨rfl, congrArg (fun b => some ([0x15, n] ++ b)) (bytes_le32 k0 k1 k2 k3)⟩
    | [] | [_, _] | [_, _, _] | [_, _, _, _] | _ :: _ :: _ :: _ :: _ :: _ :: _ => exact nomatch (show none = _ by rfl).trans h
  · match params with
    | [n] =>
      obtain rfl := Option.some.inj ((show some (Instr.setClip n none) = _ by rfl).trans h)
      exact ⟨rfl, rfl⟩
    | [n, a0, a1, a2, c0, c1, c2] =>
      obtain rfl := Option.some.inj ((show some (Instr.setClip n (some (Decode.rect a0 a1 a2 c0 c1 c2))) = _ by rfl).trans h)
      exact ⟨rfl, congrArg (fun b => some ([0x16, n] ++ b)) (bytes_rect a0 a1 a2 c0 c1 c2)⟩
    | [] | [_, _] | [_, _, _] | [_, _, _, _] | [_, _, _, _, _] | [_, _, _, _, _, _] |
      _ :: _ :: _ :: _ :: _ :: _ :: _ :: _ :: _ =>
      exact nomatch (show none = _ by rfl).trans h
  · match params with
    | [n, m] =>
      obtain rfl := Option.some.inj ((show some (Instr.setAccess n m) = _ by rfl).trans h)
      exact ⟨rfl, rfl⟩
    | [] | [_] | _ :: _ :: _ :: _ => exact nomatch (show none = _ by rfl).trans h
  · obtain ⟨a, rfl, rfl⟩ := decoded_unary h (fun _ => by rfl) (by rfl) fun _ _ _ => by rfl
    exact ⟨rfl, rfl⟩
  · match params with
    | [hw, lg] =>
      obtain rfl := Option.some.inj ((show some (Instr.queueConfig hw lg) = _ by rfl).trans h)
      exact ⟨rfl, rfl⟩
    | [] | [_] | _ :: _ :: _ :: _ => exact nomatch (show none = _ by rfl).trans h
  · obtain ⟨rfl, rfl⟩ := decoded_nullary h (by rfl) fun _ _ => by rfl
    exact ⟨rfl, rfl⟩
  · match params with
    | [n, a0, a1, a2, c0, c1, c2] =>
      obtain rfl := Option.some.inj ((show some (Instr.damageAdd n (Decode.rect a0 a1 a2 c0 c1 c2)) = _ by rfl).trans h)
      exact ⟨rfl, congrArg (fun b => some ([0x31, n] ++ b)) (bytes_rect a0 a1 a2 c0 c1 c2)⟩
    | [] | [_] | [_, _] | [_, _, _] | [_, _, _, _] | [_, _, _, _, _] | [_, _, _, _, _, _] |
      _ :: _ :: _ :: _ :: _ :: _ :: _ :: _ :: _ =>
      exact nomatch (show none = _ by rfl).trans h
  · obtain ⟨a, rfl, rfl⟩ := decoded_unary h (fun _ => by rfl) (by rfl) fun _ _ _ => by rfl
    exact ⟨rfl, rfl⟩
  · obtain ⟨a, rfl, rfl⟩ := decoded_unary h (fun _ => by rfl) (by rfl) fun _ _ _ => by rfl
    exact ⟨rfl, rfl⟩
  · match params with
    | [f, l, r] =>
      obtain rfl := Option.some.inj ((show some (Instr.streamConfig f l r) = _ by rfl).trans h)
      exact ⟨rfl, rfl⟩
    | [] | [_] | [_, _] | _ :: _ :: _ :: _ :: _ => exact nomatch (show none = _ by rfl).trans h
  · obtain ⟨rfl, rfl⟩ := decoded_nullary h (by rfl) fun _ _ => by rfl
    exact ⟨rfl, rfl⟩
  · obtain ⟨rfl, rfl⟩ := decoded_nullary h (by rfl) fun _ _ => by rfl
    exact ⟨rfl, rfl⟩
  · match params with
    | [] =>
      obtain rfl := Option.some.inj ((show some (Instr.irqMask none) = _ by rfl).trans h)
      exact ⟨rfl, rfl⟩
    | [m] =>
      obtain rfl := Option.some.inj ((show some (Instr.irqMask (some m)) = _ by rfl).trans h)
      exact ⟨rfl, rfl⟩
    | _ :: _ :: _ => exact nomatch (show none = _ by rfl).trans h
  · obtain ⟨a, rfl, rfl⟩ := decoded_unary h (fun _ => by rfl) (by rfl) fun _ _ _ => by rfl
    exact ⟨rfl, rfl⟩
  · obtain ⟨rfl, rfl⟩ := decoded_nullary h (by rfl) fun _ _ => by rfl
    exact ⟨rfl, rfl⟩
  · obtain ⟨rfl, rfl⟩ := decoded_nullary h (by rfl) fun _ _ => by rfl
    exact ⟨rfl, rfl⟩
  · obtain ⟨a, rfl, rfl⟩ := decoded_unary h (fun _ => by rfl) (by rfl) fun _ _ _ => by rfl
    exact ⟨rfl, rfl⟩

/-! ### Transfers (R159, R160) -/

theorem decodeTransfer_whole {code : Byte} {params : List Byte} (h : params.length ≤ 32) :
    decodeTransfer (code :: params) false = some ((decodeCommand code params).getD .unknownCommandFrame) := by
  have hlen : (code :: params).length ≤ 33 := Nat.succ_le_succ h
  rw [decodeTransfer, List.take_of_length_le hlen, decide_eq_false (Nat.not_lt.mpr hlen)]
  rfl

/-- A transfer that gives a command is one of at most 33 bytes. -/
theorem decodeTransfer_some {bytes : List Byte} {i : Instr} (h : decodeTransfer bytes false = some i)
    (hi : i ≠ .unknownCommandFrame) : ∃ code params, bytes = code :: params ∧ decodeCommand code params = some i := by
  cases bytes with
  | nil => cases h
  | cons code params =>
    by_cases hl : params.length ≤ 32
    · rw [decodeTransfer_whole hl] at h
      refine ⟨code, params, rfl, ?_⟩
      cases hd : decodeCommand code params with
      | none =>
        rw [hd] at h
        exact absurd (Option.some.inj h).symm hi
      | some j =>
        rw [hd] at h
        exact h
    · have hlong : Config.maxFrame < (code :: params).length := by
        simp only [Config.maxFrame, List.length_cons]
        omega
      rw [decodeTransfer, decide_eq_true hlong] at h
      exact absurd (Option.some.inj h).symm hi

/-- Settles O3. -/
theorem frameDecodeInvertsEncode : Obligations.FrameDecodeInvertsEncode := by
  refine ⟨fun i bytes hw h => ?_, fun i bytes h hi => ?_, fun bytes => rfl⟩
  · obtain ⟨code, params, rfl, hl, hd⟩ := decodeCommand_encode hw h
    rw [decodeTransfer_whole hl, hd]
    rfl
  · obtain ⟨code, params, rfl, hd⟩ := decodeTransfer_some h hi
    exact encode_decodeCommand hd

end Sys2Proof.Machine
end


section
/-!
PROOF. Power-on amid a programming (R201), the examination of a slot (R204, R208, R211), and the application of settings
(R205 to R211).
-/

namespace Sys2Proof.Machine

variable {s t : State}

/-! ### Codes (R12) -/

theorem MemSize.ofCode_eq_some {n : Nat} {m : MemSize} : MemSize.ofCode n = some m ↔ n = m.code := by
  constructor
  · intro h
    unfold MemSize.ofCode at h
    split at h <;> cases h <;> rfl
  · rintro rfl
    cases m <;> rfl

theorem StreamMode.ofCode_eq_some {n : Nat} {m : StreamMode} : StreamMode.ofCode n = some m ↔ n = m.code := by
  constructor
  · intro h
    unfold StreamMode.ofCode at h
    split at h <;> cases h <;> rfl
  · rintro rfl
    cases m <;> rfl

theorem PanelFormat.ofCode_eq_some {n : Nat} {f : PanelFormat} : PanelFormat.ofCode n = some f ↔ n = f.code := by
  constructor
  · intro h
    unfold PanelFormat.ofCode at h
    split at h <;> cases h <;> rfl
  · rintro rfl
    cases f <;> rfl

theorem MemSize.exists_code {n : Nat} : (∃ m : MemSize, n = m.code) ↔ n ≤ 4 := by
  constructor
  · rintro ⟨m, rfl⟩
    cases m <;> decide
  · intro h
    interval_cases n
    exacts [⟨.mib1, rfl⟩, ⟨.mib2, rfl⟩, ⟨.mib4, rfl⟩, ⟨.mib8, rfl⟩, ⟨.mib16, rfl⟩]

theorem StreamMode.exists_code {n : Nat} : (∃ m : StreamMode, n = m.code) ↔ n ≤ 2 := by
  constructor
  · rintro ⟨m, rfl⟩
    cases m <;> decide
  · intro h
    interval_cases n
    exacts [⟨.off, rfl⟩, ⟨.free, rfl⟩, ⟨.gated, rfl⟩]

theorem PanelFormat.exists_code {n : Nat} : (∃ f : PanelFormat, n = f.code) ↔ n ≤ 1 := by
  constructor
  · rintro ⟨f, rfl⟩
    cases f <;> decide
  · intro h
    interval_cases n
    exacts [⟨.p16, rfl⟩, ⟨.p24, rfl⟩]

/-! ### Images (R18) -/

/-- Where the settings stand in an image, and their ranges. -/
theorem parseSettings_eq_some {bs : List Byte} {g : Settings} : parseSettings bs = some g
    ↔ (byteAt bs 0 = g.memSize.code ∧ byteAt bs 4 = g.mode.code ∧ byteAt bs 5 = g.panelFormat.code)
      ∧ (byteAt bs 1 = g.waitLimit ∧ byteAt bs 2 = g.highWater ∧ byteAt bs 3 = g.linger ∧ byteAt bs 6 = g.answerLimit
        ∧ byteAt bs 7 = g.retries ∧ BitVec.ofNat 7 (byteAt bs 8) = g.mask)
      ∧ (1 ≤ byteAt bs 1 ∧ byteAt bs 1 ≤ 64) ∧ (1 ≤ byteAt bs 2 ∧ byteAt bs 2 ≤ 16) ∧ 1 ≤ byteAt bs 6 ∧ byteAt bs 7 ≤ 3
      ∧ byteAt bs 8 < 128 := by
  rw [← MemSize.ofCode_eq_some, ← StreamMode.ofCode_eq_some, ← PanelFormat.ofCode_eq_some]
  unfold parseSettings
  cases MemSize.ofCode (byteAt bs 0) with
  | none => simp
  | some m =>
    cases StreamMode.ofCode (byteAt bs 4) with
    | none => simp
    | some sm =>
      cases PanelFormat.ofCode (byteAt bs 5) with
      | none => simp
      | some pf =>
        obtain ⟨gm, gw, gh, gl, gs, gp, ga, gr, gk⟩ := g
        simp only [Option.bind_eq_bind, Option.bind_some, Option.ite_none_right_eq_some, Bool.and_eq_true, decide_eq_true_eq,
          Option.some.injEq, Settings.mk.injEq]
        tauto

/-- Bytes 0 to 8 are in the ranges of R18. -/
theorem parseSettings_isSome {bs : List Byte} : (parseSettings bs).isSome = true
    ↔ byteAt bs 0 ≤ 4 ∧ (1 ≤ byteAt bs 1 ∧ byteAt bs 1 ≤ 64) ∧ (1 ≤ byteAt bs 2 ∧ byteAt bs 2 ≤ 16) ∧ byteAt bs 4 ≤ 2
      ∧ byteAt bs 5 ≤ 1 ∧ 1 ≤ byteAt bs 6 ∧ byteAt bs 7 ≤ 3 ∧ byteAt bs 8 < 128 := by
  rw [Option.isSome_iff_exists]
  constructor
  · rintro ⟨g, hg⟩
    obtain ⟨⟨hm, hs, hp⟩, _, h1, h2, h6, h7, h8⟩ := parseSettings_eq_some.mp hg
    exact ⟨MemSize.exists_code.mp ⟨_, hm⟩, h1, h2, StreamMode.exists_code.mp ⟨_, hs⟩, PanelFormat.exists_code.mp ⟨_, hp⟩,
      h6, h7, h8⟩
  · rintro ⟨h0, h1, h2, h4, h5, h6, h7, h8⟩
    obtain ⟨m, hm⟩ := MemSize.exists_code.mpr h0
    obtain ⟨sm, hs⟩ := StreamMode.exists_code.mpr h4
    obtain ⟨pf, hp⟩ := PanelFormat.exists_code.mpr h5
    exact ⟨⟨m, _, _, _, sm, pf, _, _, _⟩,
      parseSettings_eq_some.mpr ⟨⟨hm, hs, hp⟩, ⟨rfl, rfl, rfl, rfl, rfl, rfl⟩, h1, h2, h6, h7, h8⟩⟩

/-- A part of a list holds 00h only. -/
theorem part_zero_iff {bs : List Byte} {a n : Nat} :
    ((bs.drop a).take n).all (· == 0) = true ↔ ∀ i, a ≤ i → i < a + n → byteAt bs i = 0 := by
  simp only [List.all_eq_true, beq_iff_eq, byteAt]
  constructor
  · intro h i h1 h2
    by_cases hi : i < bs.length
    · have hmem : bs[i] ∈ (bs.drop a).take n := List.mem_iff_getElem.mpr
        ⟨i - a, by simp only [List.length_take, List.length_drop]; omega, by simp [show a + (i - a) = i by omega]⟩
      simp [List.getD_eq_getElem?_getD, hi, h _ hmem]
    · simp [List.getD_eq_getElem?_getD, hi]
  · intro h b hb
    obtain ⟨j, hj, rfl⟩ := List.mem_iff_getElem.mp hb
    simp only [List.length_take, List.length_drop] at hj
    have := h (a + j) (by omega) (by omega)
    rw [List.getD_eq_getElem?_getD, List.getElem?_eq_getElem (by omega)] at this
    simpa using BitVec.eq_of_toNat_eq (y := 0#8) this

theorem slotImage_getElem? (m : List Host.Cell) (n : Fin 4) {i : Nat} (hi : i < 512) :
    (slotImage m n)[i]? = some (otpRead m (512 * n.val + i)) := by
  simp [slotImage, Config.slotBytes, hi, slotAddress]

theorem slotImage_length (m : List Host.Cell) (n : Fin 4) : (slotImage m n).length = 512 := by
  simp [slotImage, Config.slotBytes]

/-! ### A programming interrupted (R201) -/

/-- Settles O7. The bits left of the image are the free values of `Config.interruptedBits`. -/
theorem resetInterruptsProgramming : Obligations.ResetInterruptsProgramming := by
  intro asel s w hwf hw hlen
  have hint : s.store.interrupted s.freeCount = otpProgramAll s.store.otp (slotAddress w.slot 0)
      (w.image.zipIdx.map fun c => c.1 ||| Config.interruptedBits (Config.imageBytes * s.freeCount + c.2)) := by
    simp only [ProfileStore.interrupted, hw]
  have hlast {i : Nat} (h1 : 508 ≤ i) (h2 : i < 512) :
      otpRead (s.store.interrupted s.freeCount) (slotAddress w.slot i) = otpRead s.store.otp (slotAddress w.slot i) :=
    ProfileStore.interrupted_marks (by rintro _ hv; cases hw.symm.trans hv; exact hlen) _ _ h1 h2
  refine ⟨s.restart asel, fun i => Config.interruptedBits (Config.imageBytes * s.freeCount + i), rfl, rfl, rfl, rfl, rfl, rfl,
    fun i hi => ?_, fun a ha => ?_, fun h8 h9 => ?_⟩
  · show otpRead (s.store.interrupted s.freeCount) _ = _
    rw [hint]
    exact otpRead_programSlot (fun i => Config.interruptedBits (Config.imageBytes * s.freeCount + i)) (by omega) hwf
  · show otpRead (s.store.interrupted s.freeCount) _ = _
    rw [hint]
    exact otpRead_programSlot_other _ (fun i => Config.interruptedBits (Config.imageBytes * s.freeCount + i))
      fun i hi => ha i (by omega)
  · have hheld : (s.restart asel).heldState w.slot = slotMarks (s.store.interrupted s.freeCount) w.slot :=
      heldFromMarks_get _ _
    rw [← hlast (by omega) (by omega)] at h8 h9
    rw [hheld, slotMarks_eq]
    simp only [slotAddress, Config.slotBytes] at h8 h9
    rw [if_neg h8, if_pos h9, ite_self]

/-! ### The examination of a slot (R204) -/

theorem imageGood_iff {image : List Byte} : imageGood image = true ↔
    ((image.take 506).map BitVec.toNat).sum % 65536 = byteAt image 506 + 256 * byteAt image 507
      ∧ (parseSettings image).isSome = true ∧ (∀ i, 10 ≤ i → i < 16 → byteAt image i = 0)
      ∧ ∀ i, 272 ≤ i → i < 506 → byteAt image i = 0 := by
  simp only [imageGood, Bool.and_eq_true, part_zero_iff, beq_iff_eq, and_assoc]
  rfl

theorem nextStage_eq (n : Fin 4) : nextStage n = if n = 0 then .applying none else .examining (n - 1) := by
  match n with
  | 0 | 1 | 2 | 3 => rfl

/-- Settles O8. -/
theorem slotExaminationOutcomes : Obligations.SlotExaminationOutcomes := by
  refine ⟨fun image => ?_, fun m n => ⟨slotImage_length m n, fun i => slotImage_getElem? m n⟩, fun s kind n hl => ?_⟩
  · rw [imageGood_iff, parseSettings_isSome]
    simp only [byteAt, and_assoc]
  have hexec : exec .slotExamination s = .next (s.examined kind n) := by
    show execSlotExamination s = _
    simp only [execSlotExamination, hl]
  have bad (h : s.heldState n ≠ .written ∨ imageGood (slotImage s.store.otp n) = false) : s.slotGood n = false := by
    rcases h with h | h <;> simp [State.slotGood, h]
  rw [hexec]
  simp only [← nextStage_eq]
  refine ⟨fun hw hg => ?_, fun hk hw => ?_, fun hk hw hg => ?_, fun m hk hw hg => ?_⟩
  · simp [State.examined, State.slotGood, hw, hg]
  · have hr : s.rejectSlot n = s := if_neg hw
    rcases hk with rfl | rfl <;> simp [State.examined, bad (.inl hw), hr]
  · have hr : s.rejectSlot n = (s.markSlot n 511 .damaged).post (.profileFault n none .fault) := if_pos hw
    rcases hk with rfl | rfl <;> simp [State.examined, bad (.inr hg), hr]
  · have hr : s.rejectSlot n = (s.markSlot n 511 .damaged).post (.profileFault n none .fault) := if_pos hw
    rw [hk, State.examined, bad (.inr hg), hr]
    rfl

/-! ### The application of settings (R205 to R211) -/

theorem State.takeIfIdle_empty (h : s.damage.records = []) : s.takeIfIdle = s :=
  State.takeIfIdle_same (.inr (by rw [h]; rfl))

/-- With the port free the settings and the windows are applied and the load ends. -/
theorem exec_applyGlobalSettings {kind : LoadKind} {image : Option (Fin 4)} (hl : s.store.load = some ⟨kind, .applying image⟩)
    (ha : s.port.access = none) : exec .applyGlobalSettings s = .next ((s.loadImage image).endLoad kind image) := by
  show execApplyGlobalSettings s = _
  simp [execApplyGlobalSettings, hl, ha]

theorem State.withSettings_merge (g : Settings) (o : Option (Fin 4)) (h : s.merge.entries = []) :
    (s.withSettings g o).merge = ⟨[], g.highWater, g.linger⟩ := by
  rw [← h]
  rfl

/-- Settles O9. -/
theorem factoryStartUpEnds : Obligations.FactoryStartUpEnds := by
  intro s ha he
  have hmerge := s.withSettings_merge Settings.factory none he
  have hdrain : (s.withSettings Settings.factory none).chooseDrain = s.withSettings Settings.factory none :=
    DrainChosen.of_empty (by rw [hmerge])
  have hload : s.loadImage none = s.withSettings Settings.factory none :=
    (congrArg State.takeIfIdle hdrain).trans (State.takeIfIdle_same (.inl nofun))
  have happlied : s.withSettings Settings.factory none
      = { s.withSettings Settings.factory none with merge := ⟨[], 12, 16⟩ } := by
    rw [← show (s.withSettings Settings.factory none).merge = ⟨[], 12, 16⟩ from hmerge]
  refine ⟨fun hl => ?_, fun hl => ?_⟩
  · rw [exec_applyGlobalSettings hl ha, hload, happlied]
    rfl
  · rw [exec_applyGlobalSettings hl ha, hload, happlied]
    rfl

/-! ### The windows of an image (R18, R206) -/

/-- The windows below k opened from an image (R206). -/
def State.openedBelow (s : State) (slot : Fin 4) (image : List Byte) (k : Nat) : State :=
  (allWindows.take k).foldl (openFromImage slot image) s

theorem State.openedBelow_succ (s : State) (slot : Fin 4) (image : List Byte) (w : Fin 8) :
    s.openedBelow slot image (w.val + 1) = openFromImage slot image (s.openedBelow slot image w.val) w := by
  have h : allWindows.take (w.val + 1) = allWindows.take w.val ++ [w] := by
    match w with
    | 0 | 1 | 2 | 3 | 4 | 5 | 6 | 7 => rfl
  rw [State.openedBelow, h, List.foldl_append]
  rfl

theorem State.opens_openedBelow (s : State) (slot : Fin 4) (image : List Byte) (k : Nat) :
    Opens s (s.openedBelow slot image k) := by
  unfold State.openedBelow
  generalize allWindows.take k = ws
  induction ws generalizing s with
  | nil => exact .refl
  | cons w ws ih => exact (opens_openFromImage slot image s w).trans (ih _)

theorem imageDescriptor_absent {image : List Byte} {n : Fin 8} (h : (byteAt image 9).testBit n.val = false) :
    imageDescriptor image n = none := 
  if_neg (by rw [show (image.getD 9 0).getLsbD n.val = false from h]; decide)

theorem imageDescriptor_present {image : List Byte} {n : Fin 8} (h : (byteAt image 9).testBit n.val = true) :
    imageDescriptor image n = some ((image.drop (16 + 32 * n.val)).take 32) := if_pos h

theorem byteAt_part (bs : List Byte) (a n : Nat) {i : Nat} (hi : i < n) : byteAt ((bs.drop a).take n) i = byteAt bs (a + i) := by
  simp [byteAt, List.getD_eq_getElem?_getD, hi]

/-! ### The open checks, one at a time (R22 to R25) -/

theorem openChecks_badArg {b : Table} {m : MemSize} {d : List Byte} (h : (parseDescriptor d).rangeCheck = none) :
    openChecks b m d = .error .badArg := by simp [openChecks, h]

theorem openChecks_range {b : Table} {m : MemSize} {d : List Byte} {v : WindowValues}
    (h : (parseDescriptor d).rangeCheck = some v) (hm : m.bytes < v.memBase + v.height * v.pitch * 4) :
    openChecks b m d = .error .range := by
  have : v.fitsMemory m = false := by simpa [WindowValues.fitsMemory] using hm
  simp [openChecks, h, this]

theorem openChecks_overlap {m : MemSize} {d : List Byte} {v : WindowValues}
    (h : (parseDescriptor d).rangeCheck = some v) (hm : v.memBase + v.height * v.pitch * 4 ≤ m.bytes)
    (ho : 4294967296 < v.hostBase + v.hostSpan ∨ ∃ k : Fin 8, ∃ x ∈ (s.window k).values?, v.apart x = false) :
    openChecks s.table m d = .error .overlap := by
  have hf : s.table.hostRangeFree v = false := by
    rw [Bool.eq_false_iff, ne_eq, hostRangeFree_iff]
    rintro ⟨he, ha⟩
    rcases ho with ho | ⟨k, x, hx, hn⟩
    · omega
    · rw [ha k x hx] at hn
      cases hn
  simp [openChecks, h, WindowValues.fitsMemory_iff.mpr hm, hf]

theorem openFromImage_absent {slot : Fin 4} {image : List Byte} {n : Fin 8} (h : imageDescriptor image n = none) :
    openFromImage slot image s n = s := by simp [openFromImage, h]

theorem openFromImage_fault {slot : Fin 4} {image d : List Byte} {n : Fin 8} {r : Result} (h : imageDescriptor image n = some d)
    (hc : openChecks s.table s.port.memSize d = .error r) :
    openFromImage slot image s n = s.post (.profileFault slot (some n) r) := by simp [openFromImage, h, hc]

theorem openFromImage_opens {slot : Fin 4} {image d : List Byte} {n : Fin 8} {v : WindowValues}
    (h : imageDescriptor image n = some d) (hc : openChecks s.table s.port.memSize d = .ok v) :
    openFromImage slot image s n = s.setWindow n (.active v) := by simp [openFromImage, h, hc]

/-- Where the settings stand in an image (R18). -/
theorem parseSettings_layout {image : List Byte} {g : Settings} (h : parseSettings image = some g) :
    g.memSize.bytes = 1048576 * 2 ^ byteAt image 0 ∧ g.waitLimit = byteAt image 1 ∧ g.highWater = byteAt image 2
      ∧ g.linger = byteAt image 3
      ∧ g.mode = (if byteAt image 4 = 0 then .off else if byteAt image 4 = 1 then .free else .gated)
      ∧ g.panelFormat = (if byteAt image 5 = 0 then .p16 else .p24)
      ∧ g.answerLimit = byteAt image 6 ∧ g.retries = byteAt image 7 ∧ g.mask.toNat = byteAt image 8 := by
  obtain ⟨⟨hm, hs, hp⟩, ⟨h1, h2, h3, h6, h7, h8⟩, _, _, _, _, hlt⟩ := parseSettings_eq_some.mp h
  refine ⟨?_, h1.symm, h2.symm, h3.symm, ?_, ?_, h6.symm, h7.symm, ?_⟩
  · rw [hm]
    cases g.memSize <;> rfl
  · rw [hs]
    cases g.mode <;> rfl
  · rw [hp]
    cases g.panelFormat <;> rfl
  · rw [← h8, BitVec.toNat_ofNat]
    exact Nat.mod_eq_of_lt hlt

/-- With an empty damage list the load of a slot applies its settings, makes the drain choice and opens the windows. -/
theorem State.loadImage_some {n : Fin 4} {g : Settings} (hg : parseSettings (slotImage s.store.otp n) = some g)
    (hr : s.damage.records = []) : s.loadImage (some n)
      = (s.withSettings g (some n)).chooseDrain.openedBelow n (slotImage s.store.otp n) 8 := by
  have hstart : s.applySettings g (some n) = (s.withSettings g (some n)).chooseDrain := by
    refine State.takeIfIdle_empty ?_
    rw [State.chooseDrain_merge]
    exact hr
  rw [State.loadImage, hg]
  exact congrArg (fun u => State.openWindows u n (slotImage s.store.otp n)) hstart

/-- The end of a load by its kind (R208 to R211). -/
theorem State.endLoad_kind {r : List Byte} {o : Option LongOp} (hr : s.mgmt.response = r) (ho : s.mgmt.slot = o)
    (kind : LoadKind) (image : Option (Fin 4)) : s.endLoad kind image =
      let loaded := s.post (.profileLoaded image)
      let ended (response : List Byte) (slot : Option LongOp) : State :=
        { loaded with
          mgmt := { loaded.mgmt with response := response, slot := slot }
          host := { loaded.host with state := .accepting }
          store := { loaded.store with load := none } }
      match kind with
      | .startUp => ended [0x00] o
      | .softReset => (ended r none).post (.opDone 0x0F .done)
      | .profileLoad _ => (ended r none).post (.opDone 0x63 .done) := by
  subst hr ho
  cases kind <;> rfl

/-- Settles O10. -/
theorem imageLoadAppliesSettings : Obligations.ImageLoadAppliesSettings := by
  refine ⟨fun image => ⟨fun g => parseSettings_layout, fun n => ⟨imageDescriptor_absent, fun h =>
      ⟨_, imageDescriptor_present h, fun i hi => byteAt_part image _ 32 hi⟩⟩⟩,
    fun s kind n g hl hg hrec => ⟨fun ha => ?_, fun ha => ?_⟩⟩
  · show execApplyGlobalSettings s = _
    simp only [execApplyGlobalSettings, hl, Option.isSome_iff_ne_none.mpr ha, if_true]
  · let start := (s.withSettings g (some n)).chooseDrain
    let image := slotImage s.store.otp n
    have hopens (k : Nat) := start.opens_openedBelow n image k
    have hframe (k : Nat) : (start.openedBelow n image k).port = start.port
        ∧ (start.openedBelow n image k).mgmt = start.mgmt := by
      obtain ⟨ws, ev, heq⟩ := (hopens k).frame
      rw [heq]
      exact ⟨rfl, rfl⟩
    have hstart : start.port.memSize = g.memSize ∧ start.mgmt.slot = s.mgmt.slot ∧ start.mgmt.response = s.mgmt.response := by
      have heq := (s.withSettings g (some n)).chooseDrain_merge
      exact ⟨congrArg (fun u => u.port.memSize) heq, congrArg (fun u => u.mgmt.slot) heq,
        congrArg (fun u => u.mgmt.response) heq⟩
    refine ⟨start.openedBelow n image, rfl, fun w => ?_, ?_⟩
    · rw [State.openedBelow_succ]
      have hmem : (start.openedBelow n image w.val).port.memSize = g.memSize := by rw [(hframe w.val).1, hstart.1]
      generalize start.openedBelow n image w.val = u at hmem
      split
      · exact openFromImage_absent ‹_›
      · rename_i d hd
        refine ⟨fun hc => openFromImage_fault hd (openChecks_badArg hc), fun v hc =>
          ⟨fun hm => ?_, fun hm => ⟨fun ho => ?_, fun he ha => ?_⟩⟩⟩
        · exact openFromImage_fault hd (openChecks_range hc (by rwa [hmem]))
        · exact openFromImage_fault hd (openChecks_overlap hc (by rwa [hmem]) ho)
        · refine openFromImage_opens hd (openChecks_ok.mpr ⟨hc, ?_, hostRangeFree_iff.mpr ⟨he, ha⟩⟩)
          rw [hmem]
          exact WindowValues.fitsMemory_iff.mpr hm
    · have hend := State.endLoad_kind (s := start.openedBelow n image 8) (o := s.mgmt.slot) (r := s.mgmt.response)
        (by rw [(hframe 8).2, hstart.2.2]) (by rw [(hframe 8).2, hstart.2.1]) kind (some n)
      have hload := congrArg (fun u => u.endLoad kind (some n)) (State.loadImage_some hg hrec)
      refine (exec_applyGlobalSettings hl ha).trans (congrArg Host.Outcome.next (hload.trans (hend.trans ?_)))
      cases kind <;> rfl

end Sys2Proof.Machine
end


section
/-!
PROOF. The management port (chapter 8): the frames refused, who writes the arm and the response buffer, the reporting
commands, the transfers on the bus, and a SOFT_RESET up to phase 7.
-/

namespace Sys2Proof.Machine

variable {s t u : State}

/-! ### Refusals -/

/-- The frame was refused without touching a block, or answered DONE or ACCEPTED (R162). -/
def State.RefusedOrTaken (s t : State) : Prop :=
  t = s.reply t.mgmt.response ∨ t.mgmt.response.head? = some 0x00 ∨ t.mgmt.response.head? = some 0x01

theorem State.RefusedOrTaken.refused (d : List Byte) : s.RefusedOrTaken (s.reply d) := .inl rfl

theorem State.RefusedOrTaken.done (d : List Byte) : s.RefusedOrTaken (u.reply (0x00 :: d)) := .inr (.inl rfl)

theorem State.RefusedOrTaken.accepted : s.RefusedOrTaken (u.reply [0x01]) := .inr (.inr rfl)

theorem State.RefusedOrTaken.ite {p : Prop} [Decidable p] (ht : s.RefusedOrTaken t) (hu : s.RefusedOrTaken u) :
    s.RefusedOrTaken (if p then t else u) := by
  split
  · exact ht
  · exact hu

open State.RefusedOrTaken in
/-- Every frame taken is refused without touching a block, or is answered DONE or ACCEPTED (R162). -/
theorem exec_refusedOrTaken {c : Instr} (hc : c.isFrame = true) (h : s.ready) :
    ∃ t, exec c s = .next t ∧ s.RefusedOrTaken t := by
  cases c with
  | brokenFrame => exact ⟨_, exec_brokenFrame h, refused _⟩
  | unknownCommandFrame => exact ⟨_, exec_unknownCommandFrame h, refused _⟩
  | status => exact ⟨_, exec_status h, refused _⟩
  | ident => exact ⟨_, exec_ident h, refused _⟩
  | damageRead => exact ⟨_, exec_damageRead h, refused _⟩
  | eventsRead => exact ⟨_, exec_eventsRead h, done _⟩
  | softReset =>
    refine ⟨_, exec_softReset h, ?_⟩
    split
    · exact refused _
    · exact refused _
    all_goals exact accepted
  | stageWindow d => exact ⟨_, exec_stageWindow d h, .ite (refused _) (.ite (refused _) (.ite (refused _) (done _)))⟩
  | openWindow b =>
    refine ⟨_, exec_openWindow b h, ?_⟩
    split
    · exact refused _
    · exact done _
  | closeWindow b =>
    refine ⟨_, exec_closeWindow b h, ?_⟩
    split
    · exact refused _
    · refine .ite (refused _) ?_
      split
      · exact refused _
      · exact accepted
  | queryWindow b =>
    refine ⟨_, exec_queryWindow b h, ?_⟩
    split
    · exact refused _
    · exact refused _
  | setScroll b y =>
    refine ⟨_, exec_setScroll b y h, ?_⟩
    split
    · exact refused _
    · exact .ite (refused _) (done _)
  | setKey b k =>
    refine ⟨_, exec_setKey b k h, ?_⟩
    split
    · exact refused _
    · exact .ite (refused _) (done _)
  | setClip b c =>
    refine ⟨_, exec_setClip b c h, ?_⟩
    split
    · exact refused _
    · exact .ite (refused _) (done _)
  | setAccess b m =>
    refine ⟨_, exec_setAccess b m h, ?_⟩
    split
    · exact refused _
    · split
      · exact refused _
      · exact done _
  | flush b =>
    refine ⟨_, exec_flush b h, ?_⟩
    split
    · exact refused _
    · exact .ite (refused _) accepted
  | queueConfig hw lg => exact ⟨_, exec_queueConfig hw lg h, .ite (refused _) (done _)⟩
  | damageAdd b r =>
    refine ⟨_, exec_damageAdd b r h, ?_⟩
    split
    · exact refused _
    · exact .ite (refused _) (.ite (refused _) (done _))
  | damageClear b =>
    refine ⟨_, exec_damageClear b h, ?_⟩
    split
    · exact refused _
    · exact .ite (refused _) (done _)
  | streamMode m =>
    refine ⟨_, exec_streamMode m h, ?_⟩
    split
    · exact refused _
    · exact .ite (refused _) (done _)
  | streamConfig f l r =>
    refine ⟨_, exec_streamConfig f l r h, ?_⟩
    split
    · exact refused _
    · exact .ite (refused _) (.ite (refused _) (.ite (refused _) (done _)))
  | streamResume => exact ⟨_, exec_streamResume h, .ite (refused _) (.ite (refused _) (done _))⟩
  | irqMask m =>
    refine ⟨_, exec_irqMask m h, ?_⟩
    split
    · exact refused _
    · exact .ite (refused _) (done _)
  | profileArm b =>
    refine ⟨_, exec_profileArm b h, ?_⟩
    split
    · exact refused _
    · exact .inr (.inl rfl)
  | profileWrite =>
    refine ⟨_, exec_profileWrite h, ?_⟩
    split
    · exact refused _
    · exact .ite (refused _) (.ite (refused _) accepted)
  | profileRetire =>
    refine ⟨_, exec_profileRetire h, ?_⟩
    split
    · exact refused _
    · exact .ite (refused _) (.ite (refused _) (done _))
  | profileLoad b =>
    refine ⟨_, exec_profileLoad b h, ?_⟩
    split
    · exact refused _
    · exact .ite (refused _) (.ite (refused _) (.ite (refused _) accepted))
  | powerOn _ | resetPin _ | slotExamination | applyGlobalSettings | softResetPhase2End | softResetPhase3End
  | closeDrainComplete | flushComplete | programmingEnd _ | hostRequestAccept _ | beatDecode | laneArrival
  | hostAnswerTransfer | entryDue _ | arbiterGrant | memoryAnswer _ | accessTimeout | pixelSent | endSent | panelAccept
  | panelRefuse | answerTimeout | sync | abortMessageSent => cases hc

/-- Settles O12. -/
theorem refusedFrameChangesNoBlock : Obligations.RefusedFrameChangesNoBlock := fun c s t hc h ht ⟨b, hb, hcode⟩ => by
  obtain ⟨t', ht', hr⟩ := exec_refusedOrTaken hc h
  obtain rfl := Host.Outcome.next.inj (ht'.symm.trans ht)
  rcases hr with hr | hr | hr
  · exact hr
  · obtain rfl : (0x00 : Byte) = b := Option.some.inj (hr.symm.trans hb)
    exact absurd hcode (by decide)
  · obtain rfl : (0x01 : Byte) = b := Option.some.inj (hr.symm.trans hb)
    exact absurd hcode (by decide)

/-! ### The arm and the response buffer -/

/-- The response buffer and the sampled address line stand as they did. -/
def State.sameResponse (s t : State) : Prop := t.mgmt.response = s.mgmt.response ∧ t.mgmt.asel = s.mgmt.asel

theorem State.sameResponse.trans (h : s.sameResponse t) (h' : t.sameResponse u) : s.sameResponse u :=
  ⟨h'.1.trans h.1, h'.2.trans h.2⟩

theorem OperationMove.response (h : OperationMove s t) : s.sameResponse t := by
  cases h <;> exact ⟨rfl, rfl⟩

theorem MarkMove.response (h : MarkMove s t) : s.sameResponse t := by
  cases h <;> exact ⟨rfl, rfl⟩

theorem Move.response (h : Move s t) : s.sameResponse t := by
  cases h with
  | stream h => exact ⟨by rw [h.frame.1], by rw [h.frame.1]⟩
  | operation h => exact h.response
  | phase3Ends _ _ =>
    unfold State.phases4to7
    split <;> exact ⟨rfl, rfl⟩
  | _ => exact ⟨rfl, rfl⟩

theorem Moves.response (h : Moves s t) : s.sameResponse t :=
  h.keeps (P := s.sameResponse) (fun _ _ hm hs => hs.trans hm.response) ⟨rfl, rfl⟩

theorem Acts.response (h : Acts s t) : s.sameResponse t := by
  obtain ⟨u, rfl | hu, hm⟩ := h
  · exact hm.response
  · exact hu.response.trans hm.response

theorem Opens.response (h : Opens s t) : s.sameResponse t := by
  obtain ⟨ws, ev, rfl⟩ := h.frame
  exact ⟨rfl, rfl⟩

/-- The end of a load leaves the response buffer alone, but for the start-up load (R181). -/
theorem endLoad_response {kind : LoadKind} (hk : kind ≠ .startUp) (image : Option (Fin 4)) :
    s.sameResponse (s.endLoad kind image) := by
  rw [s.endLoad_kind rfl rfl]
  cases kind with
  | startUp => exact absurd rfl hk
  | softReset => exact ⟨rfl, rfl⟩
  | profileLoad _ => exact ⟨rfl, rfl⟩

theorem applyGlobalSettings_response (h : s.ready) (ht : exec .applyGlobalSettings s = .next t) : s.sameResponse t := by
  obtain rfl := Host.Outcome.next.inj ht
  split
  · rename_i kind image hl
    have hk : kind ≠ .startUp := by
      rintro rfl
      have hstart : s.startingUp = true := by simp [State.startingUp, hl]
      exact Bool.false_ne_true (h.symm.trans hstart)
    split
    · exact ⟨rfl, rfl⟩
    · obtain ⟨u, w, hu, _, _, _, _, _, _, hw, heq⟩ := loaded_cases hl (Option.not_isSome_iff_eq_none.mp ‹_›)
      rw [heq]
      exact (hu.response.trans hw.response).trans (endLoad_response hk image)
  · exact ⟨rfl, rfl⟩
  · exact ⟨rfl, rfl⟩

/-- Settles O13. -/
theorem armAndResponseOwners : Obligations.ArmAndResponseOwners := by
  refine ⟨fun c s t hc h ht => ?_, fun c s t hc ht hr hl => ?_⟩
  · rcases frame_replies h hc with ⟨t', ht', u, d, _, rfl⟩ | ⟨b, k, rfl, hb, ht'⟩
    · obtain rfl := Host.Outcome.next.inj (ht'.symm.trans ht)
      exact .inl rfl
    · obtain rfl := Host.Outcome.next.inj (ht'.symm.trans ht)
      exact .inr ⟨b, k, rfl, hb, rfl⟩
  · by_cases hg : c = .applyGlobalSettings
    · exact applyGlobalSettings_response (hl hg) (hg ▸ ht)
    · obtain ⟨t', ht', ha⟩ := exec_acts hc hr hg s
      obtain rfl := Host.Outcome.next.inj (ht'.symm.trans ht)
      exact ha.response

/-! ### Bad frames and transfers -/

theorem busStep_address_own (read : Bool) (h : (read || s.acksWrite) = true) : s.bus (.address s.i2cAddress read)
    = s.setTransfer (some (if read then .read s.mgmt.response 0 else .write [] false)) := by
  show s.beginTransfer _ _ = _
  simp [State.beginTransfer, State.acksAddress, h]

theorem bus_written_fold (bytes : List Byte) (t : Transfer) :
    bytes.foldl (fun u b => u.bus (.written b)) (s.setTransfer (some t))
      = s.setTransfer (some (bytes.foldl Transfer.written t)) := by
  induction bytes generalizing t with
  | nil => rfl
  | cons b bs ih => exact ih (t.written b)

/-- Settles O11. -/
theorem badFramesAndStartUp : Obligations.BadFramesAndStartUp := by
  refine ⟨fun s => ?_, fun s h => ⟨exec_brokenFrame h, exec_unknownCommandFrame h⟩,
    fun c s hc h => exec_frame_startingUp hc h, fun s a read ha => ?_, fun s h => ?_,
    fun s b ack inByte h => busStep_no_transfer h b ack inByte, fun s => ?_, fun s content k h => ?_, ?_⟩
  · rcases hl : s.store.load with _ | ⟨kind, stage⟩ <;> simp [State.startingUp, hl]
  · have hne : (a == s.i2cAddress) = false := beq_false_of_ne ha
    have : s.acksAddress a read = false := by simp [State.acksAddress, hne]
    simp [busStep, State.beginTransfer, State.setTransfer, this]
  · have : s.acksAddress s.i2cAddress false = false := by simp [State.acksAddress, State.acksWrite, h]
    simp [busStep, State.beginTransfer, State.setTransfer, this]
  · exact congrArg Host.Outcome.next (busStep_address_own true rfl)
  · exact ⟨by simp [State.sendingByte, h], by simp [busStep, h, Transfer.taken, State.setTransfer]⟩
  · intro s bytes inByte h ht
    have hacks : s.acksWrite = true := by simp [State.acksWrite, h]
    have hsent : bytes.foldl (fun t b => t.bus (.written b)) (s.bus (.address s.i2cAddress false)) = s.setTransfer
        (some (.write (bytes.take Config.maxFrame) (decide (Config.maxFrame < bytes.length)))) := by
      rw [busStep_address_own false hacks, if_neg Bool.false_ne_true, bus_written_fold,
        Transfer.written_bytes bytes [] (Nat.zero_le _), List.nil_append]
    have hnone (t : Option Transfer) : (s.setTransfer t).setTransfer none = s := by
      show s.setTransfer none = s
      rw [State.setTransfer, ← ht]
    simp only [hsent]
    refine ⟨?_, ?_⟩
    · simp only [State.acksByte, State.setTransfer, List.length_take, decide_eq_true_eq]
      show min 33 _ < 33 ↔ _
      omega
    · rw [busStep_ended rfl, hnone]
      cases hd : decodeTransfer bytes inByte with
      | none => simp only [decodeTransfer] at hd; simp [hd]
      | some c => simp only [decodeTransfer] at hd; simp [hd]

/-! ### The reporting commands -/

theorem State.identData_eq (s : State) : s.identData = [0x22, 0x4A, 0x03] ++ [byteOf (s.heldState 0).code,
    byteOf (s.heldState 1).code, byteOf (s.heldState 2).code, byteOf (s.heldState 3).code] := by
  unfold State.identData State.heldState
  obtain ⟨⟨held⟩, hlen⟩ := s.store.held
  match held, hlen with
  | [a, b, c, d], _ => rfl

/-- The eight state codes stand first in STATUS (R166). -/
theorem State.statusData_window (s : State) (arm : Option (Fin 4)) (n : Fin 8) :
    (s.statusData arm)[n.val]? = some (byteOf (s.window n).code) := by
  have hn : n.val < (s.table.windows.toList.map fun w => byteOf w.code).length := by simp
  rw [State.statusData, List.getElem?_append_left hn]
  simp [State.window]

/-- The ten bytes of STATUS after the windows' state codes (R166). -/
theorem State.statusData_tail (s : State) (arm : Option (Fin 4)) (i : Nat) : (s.statusData arm)[8 + i]?
    = [byteOf s.merge.entries.length, if s.urgent then 1 else 0, byteOf s.damage.records.length,
      byteOf s.streamer.state.code, byteOf s.events.records.length,
      (s.mgmt.slot.map LongOp.command).getD 0, (s.mgmt.slot.map LongOp.parameter).getD 0,
      (s.mgmt.slot.map LongOp.phaseByte).getD 0,
      (arm.map fun n => byteOf n.val).getD 0xFF, (s.mgmt.loadOutcome.map fun n => byteOf n.val).getD 0xFF][i]? := by
  rw [State.statusData, List.getElem?_append_right (by simp)]
  simp

/-- Settles O14. -/
theorem reportingCommands : Obligations.ReportingCommands := by
  refine ⟨fun s b h => ⟨fun hb => ?_, fun n hb => ⟨fun hw => ?_, fun v hw => ?_, fun v hw => ?_⟩⟩, fun s h => ⟨?_, ?_⟩⟩
  · rw [exec_queryWindow b h, windowNumber_eq_none.mpr hb]
  · rw [exec_queryWindow b h, windowNumber_eq_some.mpr hb]
    simp only [hw]
    rfl
  · rw [exec_queryWindow b h, windowNumber_eq_some.mpr hb]
    simp only [hw]
    rfl
  · rw [exec_queryWindow b h, windowNumber_eq_some.mpr hb]
    simp only [hw]
    rfl
  · rw [exec_ident h, State.identData_eq]
    rfl
  · have tail := s.statusData_tail s.mgmt.arm
    have slot {o : Option LongOp} (ho : s.mgmt.slot = o) :
        (s.statusData s.mgmt.arm)[13]? = some ((o.map LongOp.command).getD 0)
          ∧ (s.statusData s.mgmt.arm)[14]? = some ((o.map LongOp.parameter).getD 0)
          ∧ (s.statusData s.mgmt.arm)[15]? = some ((o.map LongOp.phaseByte).getD 0) := by
      subst ho
      exact ⟨tail 5, tail 6, tail 7⟩
    refine ⟨_, exec_status h, by simp [State.statusData], s.statusData_window _, tail 0, tail 1, tail 2, tail 3, tail 4,
      fun ho => slot ho, fun n ho => slot ho, fun sel ws ho => ?_, fun k ho => slot ho, fun k ho => slot ho,
      fun p ho => slot ho, fun ha => ?_, fun k ha => ?_, fun hl => ?_, fun k hl => ?_⟩
    · obtain ⟨h13, h14, h15⟩ := slot ho
      exact ⟨h13, h15, fun hs => by simpa [LongOp.parameter, hs] using h14, fun n hs => by simpa [LongOp.parameter, hs] using h14⟩
    · exact (tail 8).trans (by rw [ha]; rfl)
    · exact (tail 8).trans (by rw [ha]; rfl)
    · exact (tail 9).trans (by rw [hl]; rfl)
    · exact (tail 9).trans (by rw [hl]; rfl)

/-! ### SOFT_RESET -/

theorem HostPort.quiet_iff_requests (h : HostPort) :
    h.quiet = true ↔ h.action = none ∧ ∀ r ∈ h.requests, r.length ≤ r.outcomes.length := by
  simp [HostPort.quiet, HostRecord.done]

/-- Phase 2 over a quiet host port goes on into phase 3 (R169). -/
theorem phase2_goesOn (h : s.mgmt.slot = some (.softReset .phase2)) (hq : s.host.quiet = true) :
    s.endPhase2.endPhase3.chooseDrain = State.phase3GoesOn { s with
      merge := { s.merge with entries := s.merge.entries.map fun e => { e with flushMark := true } }
      mgmt := { s.mgmt with slot := some (.softReset .phase3) } } := by
  rw [State.endPhase2_ends h hq, State.endPhase3_goesOn rfl]
  simp [State.setSlot, MergeQueue.mark]

theorem phase3GoesOn_drains (h : s.merge.entries ≠ []) : s.phase3GoesOn = s.chooseDrain := if_neg h

theorem State.phases4to7_quiet (hr : s.streamer.region = none) : s.phases4to7 = s.phase7Start := by
  simp [State.phases4to7, hr]

theorem State.phases4to7_region (hr : s.streamer.region.isSome = true) : s.phases4to7 = s.abortRegion.phase7Start := by
  simp [State.phases4to7, hr]

theorem MergeQueue.mark_empty {q : MergeQueue} (h : q.entries = []) :
    { q with entries := q.entries.map fun e => { e with flushMark := true } } = q := by
  obtain ⟨es, highWater, linger⟩ := q
  obtain rfl : es = [] := h
  rfl

/-- The queue being empty when phase 2 ends, phases 3 to 6 follow at once (R169). -/
theorem phase3GoesOn_empty (h : s.merge.entries = []) (o : Option LongOp) : State.phase3GoesOn { s with
      merge := { s.merge with entries := s.merge.entries.map fun e => { e with flushMark := true } }
      mgmt := { s.mgmt with slot := o } } = s.phases4to7 := by
  rw [MergeQueue.mark_empty h, State.phase3GoesOn, if_pos h, State.phases4to7]
  split <;> rfl

/-- Settles O16. -/
theorem softResetPhasesEnd : Obligations.SoftResetPhasesEnd := by
  intro s
  have phase2 (h : s.mgmt.slot = some (.softReset .phase2)) :
      exec .softResetPhase2End s = .next s.endPhase2.endPhase3.chooseDrain := congrArg Host.Outcome.next (if_pos h)
  have phase3 : exec .softResetPhase3End s = .next s.endPhase3 := rfl
  have phase3Ends (h : s.mgmt.slot = some (.softReset .phase3)) (he : s.merge.entries = []) :
      exec .softResetPhase3End s = .next s.phases4to7 := by rw [phase3, State.endPhase3_ends h he, State.resetPhases_eq]
  refine ⟨fun h hq => ?_, fun h hq hd => ?_, fun h => congrArg Host.Outcome.next (if_neg h), fun h he hr => ?_,
    fun h he hr => ?_, fun h he => ?_, fun h => ?_⟩
  · rw [phase2 h, phase2_goesOn h hq]
    refine ⟨fun he => ?_, fun he hr => ?_, fun he hr => ?_⟩
    · exact congrArg Host.Outcome.next (phase3GoesOn_drains (by simpa using he))
    · rw [phase3GoesOn_empty he, State.phases4to7_quiet hr]
    · rw [phase3GoesOn_empty he, State.phases4to7_region hr]
  · rw [phase2 h, State.endPhase2_same fun _ => hq, State.endPhase3_same (by simp [h]), hd]
  · rw [phase3Ends h he, State.phases4to7_quiet hr]
  · rw [phase3Ends h he, State.phases4to7_region hr]
  · rw [phase3, State.endPhase3_same fun _ => he]
  · rw [phase3, State.endPhase3_same fun h' => absurd h' h]

/-- SOFT_RESET taken goes through its phases as their conditions hold (R169). -/
theorem State.startSoftReset_eq (s : State) : s.startSoftReset = State.chooseDrain (State.endPhase3 (State.endPhase2
    (((s.setSlot (some (.softReset .phase2))).setLoad none).setPort .refusing))) := by
  rw [State.startSoftReset, State.settle, State.longOpEnd?_none (by simp [State.setSlot]) (by simp [State.setSlot]),
    State.postTogether_nil]

/-- The queue's urgency rests on the queue, on the beat that waits and on phase 3 (R54). -/
theorem State.urgent_of_same (hm : t.merge = s.merge) (hw : t.waitsForRoom = s.waitsForRoom)
    (h3 : t.mgmt.slot = some (.softReset .phase3) ↔ s.mgmt.slot = some (.softReset .phase3)) : t.urgent = s.urgent := by
  have hslot : (t.mgmt.slot == some (.softReset .phase3)) = (s.mgmt.slot == some (.softReset .phase3)) :=
    Bool.eq_iff_iff.mpr (by simpa using h3)
  rw [State.urgent, State.urgent, hm, hw, hslot]

/-- Settles O15. -/
theorem softResetTaken : Obligations.SoftResetTaken := by
  refine ⟨HostPort.quiet_iff_requests, fun s h => ?_⟩
  intro free refusing
  have taken (hf : free) : exec .softReset s = .next (s.startSoftReset.reply [0x01]) := by
    rw [exec_softReset h]
    rcases hf with hf | ⟨n, hf⟩ | ⟨f, ws, hf⟩ | ⟨n, hf⟩ <;> simp only [hf]
  let entered : State := { refusing with mgmt := { s.mgmt with slot := some (.softReset .phase2) } }
  have hstart : s.startSoftReset = entered.endPhase2.endPhase3.chooseDrain := s.startSoftReset_eq
  have hempty (hq : s.host.quiet = true) (he : s.merge.entries = []) : s.startSoftReset = entered.phases4to7 := by
    rw [hstart, phase2_goesOn (s := entered) rfl hq, phase3GoesOn_empty (s := entered) he]
  refine ⟨fun hb => ?_, fun hf hq hd => ?_, fun hf hq he => ?_, fun hf hq he hr => ?_, fun hf hq he hr => ?_⟩
  · rw [exec_softReset h]
    rcases hb with ⟨n, hb⟩ | ⟨p, hb⟩ <;> simp only [hb]
  · have hurgent : entered.urgent = s.urgent := by
      refine State.urgent_of_same rfl rfl ?_
      rcases hf with hf | ⟨n, hf⟩ | ⟨f, ws, hf⟩ | ⟨n, hf⟩ <;> simp [entered, hf]
    have hdrain : DrainChosen entered := hd.of_same rfl hurgent
    rw [taken hf, hstart, State.endPhase2_same (s := entered) fun _ => hq, State.endPhase3_same (by simp [entered]), hdrain]
  · rw [taken hf, hstart, phase2_goesOn (s := entered) rfl hq]
    exact congrArg (fun u => Host.Outcome.next (State.reply u [0x01])) (phase3GoesOn_drains (by simpa using he))
  · rw [taken hf, hempty hq he, State.phases4to7_quiet (s := entered) hr]
    rfl
  · rw [taken hf, hempty hq he, State.phases4to7_region (s := entered) hr]
    rfl

end Sys2Proof.Machine
end


section
/-!
PROOF. The aperture table's commands (chapter 2): a descriptor's fields and the range check, staging and opening, the
descriptor that QUERY_WINDOW returns, and the commands that change one value of an ACTIVE window.
-/

namespace Sys2Proof.Machine

variable {s t : State}

/-! ### The range check (R23) -/

theorem leastPitch_le {width pitch : Nat} {f : StoredFormat} : leastPitch width f ≤ pitch ↔ width * f.bits ≤ 32 * pitch := by
  unfold leastPitch
  omega

/-- The conditions of R23 on a window's values. -/
theorem WindowValues.inRange_iff {v : WindowValues} : v.inRange = true ↔
    v.hostBase % 4096 = 0 ∧ v.memBase % 4 = 0 ∧ (1 ≤ v.width ∧ v.width ≤ 4096) ∧ (1 ≤ v.height ∧ v.height ≤ 4096)
    ∧ v.width * v.hostFormat.bytes % 4 = 0 ∧ (1 ≤ v.pitch ∧ v.pitch ≤ 4096)
    ∧ v.width * v.storedFormat.bits ≤ 32 * v.pitch ∧ v.scroll < v.height
    ∧ (∀ k ∈ v.key, k ≤ v.hostFormat.maxKey)
    ∧ (∀ c ∈ v.clip, c.x0 ≤ c.x1 ∧ c.x1 < v.width ∧ c.y0 ≤ c.y1 ∧ c.y1 < v.height)
    ∧ (v.tracking = true → v.origin ≠ none)
    ∧ (∀ o ∈ v.origin, o.1 + v.width - 1 ≤ 4095 ∧ o.2 + v.height - 1 ≤ 4095) := by
  have horigin : (!v.tracking || v.origin.isSome) = true ↔ (v.tracking = true → v.origin ≠ none) := by
    cases v.tracking <;> cases v.origin <;> simp
  simp only [WindowValues.inRange, Bool.and_eq_true, beq_iff_eq, decide_eq_true_eq, Option.all_eq_true, Rect.within_iff,
    leastPitch_le, horigin, and_assoc, Option.mem_def]

theorem HostFormat.ofCode_cases (c : Nat) : 2 < c ∧ HostFormat.ofCode c = none ∨ ∃ f : HostFormat, c = f.code := by
  match c with
  | 0 => exact .inr ⟨.h8, rfl⟩
  | 1 => exact .inr ⟨.h16, rfl⟩
  | 2 => exact .inr ⟨.h32, rfl⟩
  | n + 3 => exact .inl ⟨by omega, rfl⟩

theorem StoredFormat.ofCode_cases (c : Nat) : 5 < c ∧ StoredFormat.ofCode c = none ∨ ∃ f : StoredFormat, c = f.code := by
  match c with
  | 0 => exact .inr ⟨.l4, rfl⟩
  | 1 => exact .inr ⟨.c8, rfl⟩
  | 2 => exact .inr ⟨.c12, rfl⟩
  | 3 => exact .inr ⟨.c16, rfl⟩
  | 4 => exact .inr ⟨.c24, rfl⟩
  | 5 => exact .inr ⟨.c32, rfl⟩
  | n + 6 => exact .inl ⟨by omega, rfl⟩

theorem AccessMode.ofCode_cases (c : Nat) : 2 < c ∧ AccessMode.ofCode c = none ∨ ∃ m : AccessMode, c = m.code := by
  match c with
  | 0 => exact .inr ⟨.readWrite, rfl⟩
  | 1 => exact .inr ⟨.readOnly, rfl⟩
  | 2 => exact .inr ⟨.writeOnly, rfl⟩
  | n + 3 => exact .inl ⟨by omega, rfl⟩

@[simp] theorem HostFormat.ofCode_code (f : HostFormat) : HostFormat.ofCode f.code = some f := by cases f <;> rfl

@[simp] theorem StoredFormat.ofCode_code (f : StoredFormat) : StoredFormat.ofCode f.code = some f := by cases f <;> rfl

@[simp] theorem AccessMode.ofCode_code (m : AccessMode) : AccessMode.ofCode m.code = some m := by cases m <;> rfl

/-- The values that a descriptor with these formats and this access mode gives (R12, R26). -/
def Descriptor.valuesWith (p : Descriptor) (hf : HostFormat) (sf : StoredFormat) (am : AccessMode) : WindowValues :=
  { hostBase := p.hostBase, hostSpan := hostSpanOf p.width p.height hf, memBase := p.memBase
    width := p.width, height := p.height, hostFormat := hf, storedFormat := sf, order := p.order
    mirrorX := p.mirrorX, mirrorY := p.mirrorY, pitch := p.pitch, scroll := p.scroll, access := am
    key := p.key, clip := p.clip, tracking := p.tracking, origin := p.origin }

theorem Descriptor.rangeCheck_eq_some {p : Descriptor} {v : WindowValues} : p.rangeCheck = some v ↔
    p.malformed = false ∧ p.formatPad = 0 ∧ p.values? = some v ∧ v.inRange = true := by
  unfold Descriptor.rangeCheck
  cases p.malformed with
  | true => simp
  | false =>
    by_cases hp : p.formatPad = 0
    · cases p.values? with
      | none => simp
      | some u =>
        simp only [hp, bne_self_eq_false, Bool.or_self, Bool.false_eq_true, if_false, Option.ite_none_right_eq_some, true_and,
          Option.some.injEq]
        exact ⟨fun ⟨h, hv⟩ => ⟨hv, hv ▸ h⟩, fun ⟨hv, h⟩ => ⟨hv ▸ h, hv⟩⟩
    · simp [hp]

theorem Descriptor.values?_codes {p : Descriptor} {hf : HostFormat} {sf : StoredFormat} {am : AccessMode}
    (hh : p.hostCode = hf.code) (hs : p.storedCode = sf.code) (ha : p.accessCode = am.code) :
    p.values? = some (p.valuesWith hf sf am) := by
  simp [Descriptor.values?, Descriptor.valuesWith, hh, hs, ha]

theorem Descriptor.values?_unlisted {p : Descriptor} (h : 2 < p.hostCode ∨ 5 < p.storedCode ∨ 2 < p.accessCode) :
    p.values? = none := by
  unfold Descriptor.values?
  rcases HostFormat.ofCode_cases p.hostCode with ⟨_, hh⟩ | ⟨hf, hh⟩
  · simp [hh]
  · rcases StoredFormat.ofCode_cases p.storedCode with ⟨_, hs⟩ | ⟨sf, hs⟩
    · simp [hs]
    · rcases AccessMode.ofCode_cases p.accessCode with ⟨_, ha⟩ | ⟨am, ha⟩
      · simp [ha]
      · have h1 : hf.code ≤ 2 := by cases hf <;> decide
        have h2 : sf.code ≤ 5 := by cases sf <;> decide
        have h3 : am.code ≤ 2 := by cases am <;> decide
        omega

theorem Descriptor.rangeCheck_conditions (p : Descriptor) (v : WindowValues) :
    let host := if p.hostCode = 0 then HostFormat.h8 else if p.hostCode = 1 then .h16 else .h32
    let stored := if p.storedCode = 0 then StoredFormat.l4 else if p.storedCode = 1 then .c8
      else if p.storedCode = 2 then .c12 else if p.storedCode = 3 then .c16
      else if p.storedCode = 4 then .c24 else .c32
    let access := if p.accessCode = 0 then AccessMode.readWrite else if p.accessCode = 1 then .readOnly else .writeOnly
    let bytes := if p.hostCode = 0 then 1 else if p.hostCode = 1 then 2 else 4
    let bits := if p.storedCode = 4 then 24 else if p.storedCode = 5 then 32 else 4 * (p.storedCode + 1)
    let largest := if p.hostCode = 0 then 255 else if p.hostCode = 1 then 65535 else 16777215
    p.rangeCheck = some v ↔
      p.malformed = false ∧ p.formatPad = 0 ∧ p.hostCode ≤ 2 ∧ p.storedCode ≤ 5 ∧ p.accessCode ≤ 2
      ∧ p.hostBase % 4096 = 0 ∧ p.memBase % 4 = 0
      ∧ (1 ≤ p.width ∧ p.width ≤ 4096) ∧ (1 ≤ p.height ∧ p.height ≤ 4096) ∧ p.width * bytes % 4 = 0
      ∧ (1 ≤ p.pitch ∧ p.pitch ≤ 4096) ∧ p.width * bits ≤ 32 * p.pitch ∧ p.scroll < p.height
      ∧ (∀ k ∈ p.key, k ≤ largest)
      ∧ (∀ c ∈ p.clip, c.x0 ≤ c.x1 ∧ c.x1 < p.width ∧ c.y0 ≤ c.y1 ∧ c.y1 < p.height)
      ∧ (p.tracking = true → p.origin ≠ none)
      ∧ (∀ o ∈ p.origin, o.1 + p.width - 1 ≤ 4095 ∧ o.2 + p.height - 1 ≤ 4095)
      ∧ v = { p.valuesWith host stored access with hostSpan := (p.width * p.height * bytes + 4095) / 4096 * 4096 } := by
  intro host stored access bytes bits largest
  rw [Descriptor.rangeCheck_eq_some]
  by_cases hcodes : p.hostCode ≤ 2 ∧ p.storedCode ≤ 5 ∧ p.accessCode ≤ 2
  · obtain ⟨h1, h2, h3⟩ := hcodes
    obtain ⟨hf, hh⟩ := (HostFormat.ofCode_cases p.hostCode).resolve_left (by omega)
    obtain ⟨sf, hs⟩ := (StoredFormat.ofCode_cases p.storedCode).resolve_left (by omega)
    obtain ⟨am, ha⟩ := (AccessMode.ofCode_cases p.accessCode).resolve_left (by omega)
    have hhost : host = hf := by simp only [host, hh]; cases hf <;> rfl
    have hstored : stored = sf := by simp only [stored, hs]; cases sf <;> rfl
    have haccess : access = am := by simp only [access, ha]; cases am <;> rfl
    have hbytes : bytes = hf.bytes := by simp only [bytes, hh]; cases hf <;> rfl
    have hbits : bits = sf.bits := by simp only [bits, hs]; cases sf <;> rfl
    have hlargest : largest = hf.maxKey := by simp only [largest, hh]; cases hf <;> rfl
    rw [Descriptor.values?_codes hh hs ha, hhost, hstored, haccess, hbytes, hbits, hlargest]
    constructor
    · rintro ⟨hm, hp, hv, hr⟩
      obtain rfl := Option.some.inj hv
      obtain ⟨c1, c2, c3, c4, c5, c6, c7, c8, c9, c10, c11, c12⟩ := WindowValues.inRange_iff.mp hr
      exact ⟨hm, hp, h1, h2, h3, c1, c2, c3, c4, c5, c6, c7, c8, c9, c10, c11, c12, rfl⟩
    · rintro ⟨hm, hp, _, _, _, c1, c2, c3, c4, c5, c6, c7, c8, c9, c10, c11, c12, rfl⟩
      exact ⟨hm, hp, rfl, WindowValues.inRange_iff.mpr ⟨c1, c2, c3, c4, c5, c6, c7, c8, c9, c10, c11, c12⟩⟩
  · rw [Descriptor.values?_unlisted (by omega)]
    simp only [reduceCtorEq, false_and, and_false, false_iff]
    rintro ⟨_, _, h1, h2, h3, _⟩
    exact hcodes ⟨h1, h2, h3⟩

/-! ### Staging and opening (R21 to R26) -/

theorem parseDescriptor_malformed {d : List Byte} :
    (parseDescriptor d).malformed = true ↔ d.length ≠ 32 ∨ sumBytes d % 256 ≠ 0 := by
  show (d.length != 32 || sumBytes d % 256 != 0) = true ↔ _
  simp

theorem State.openTarget_badArg {b : Byte} (h : 8 ≤ b.toNat) : s.openTarget b = .error .badArg := by
  simp [State.openTarget, windowNumber_eq_none.mpr h]

theorem State.openTarget_busy {b : Byte} (h : b.toNat < 8) (hr : s.resetOrLoad = true) : s.openTarget b = .error .busy := by
  have : windowNumber b = some ⟨b.toNat, h⟩ := windowNumber_eq_some.mpr rfl
  simp [State.openTarget, this, hr]

section Numbered

variable {b : Byte} {n : Fin 8} (hb : b.toNat = n.val) (hr : s.resetOrLoad = false)
include hb hr

theorem State.openTarget_inUse (hw : s.window n ≠ .unused) : s.openTarget b = .error .badState := by
  simp [State.openTarget, windowNumber_eq_some.mpr hb, hr, hw]

theorem State.openTarget_unstaged (hw : s.window n = .unused) (hd : s.table.staging = none) :
    s.openTarget b = .error .badState := by
  simp [State.openTarget, windowNumber_eq_some.mpr hb, hr, hw, hd]

/-- Checks 5 to 7 decide over the staged descriptor (R22). -/
theorem State.openTarget_staged {d : List Byte} (hw : s.window n = .unused) (hd : s.table.staging = some d) :
    s.openTarget b = (openChecks s.table s.port.memSize d).map fun v => (n, v) := by
  simp only [State.openTarget, windowNumber_eq_some.mpr hb, hr, hw, hd, Bool.false_eq_true, if_false, ne_eq, not_true_eq_false]
  cases openChecks s.table s.port.memSize d <;> rfl

end Numbered

theorem State.resetOrLoad_iff (s : State) : s.resetOrLoad = true ↔
    (∃ p, s.mgmt.slot = some (.softReset p)) ∨ ∃ n, s.mgmt.slot = some (.profileLoad n) := by
  unfold State.resetOrLoad
  rcases s.mgmt.slot with _ | (_ | _ | _ | _ | _) <;> simp

theorem WindowValues.apart_iff (v w : WindowValues) :
    v.apart w = true ↔ v.hostBase + v.hostSpan ≤ w.hostBase ∨ w.hostBase + w.hostSpan ≤ v.hostBase := by
  simp [WindowValues.apart]

/-- Settles O17. -/
theorem stageAndOpenWindow : Obligations.StageAndOpenWindow := by
  intro s h hr
  refine ⟨fun d hd hs => ?_, fun d hd hs => ?_, fun n d v hd hw hc hm he ha => ?_⟩
  · have hm : (parseDescriptor d).malformed = false := by
      rw [Bool.eq_false_iff, ne_eq, parseDescriptor_malformed]
      omega
    simp [exec_stageWindow d h, hd, hr, hm]
  · have hm : (parseDescriptor d).malformed = true := parseDescriptor_malformed.mpr (.inr hs)
    simp [exec_stageWindow d h, hd, hr, hm]
  · have hok : openChecks s.table s.port.memSize d = .ok v :=
      openChecks_ok.mpr ⟨hc, WindowValues.fitsMemory_iff.mpr hm, hostRangeFree_iff.mpr ⟨he, ha⟩⟩
    have hb : (byteOf n.val).toNat = n.val := windowNumber_eq_some.mp (windowNumber_byteOf n)
    rw [exec_openWindow _ h, State.openTarget_staged hb hr hw hd, hok]
    rfl

/-- Where the fields stand in a descriptor (R13). -/
theorem parseDescriptor_layout (d : List Byte) :
    let b (i : Nat) : Nat := (d.getD i 0).toNat
    let word (i : Nat) : Nat := b i + 256 * b (i + 1) + 65536 * b (i + 2) + 16777216 * b (i + 3)
    let pair (i : Nat) : Nat × Nat := (b i + 256 * (b (i + 1) % 16), b (i + 1) / 16 + 16 * b (i + 2))
    let p := parseDescriptor d
    (p.malformed = true ↔ d.length ≠ 32 ∨ (d.map BitVec.toNat).sum % 256 ≠ 0)
    ∧ p.hostBase = word 0 ∧ p.memBase = word 4 ∧ p.width = b 8 + 256 * b 9 ∧ p.height = b 10 + 256 * b 11
    ∧ p.pitch = b 12 + 256 * b 13 ∧ p.scroll = b 14 + 256 * b 15
    ∧ p.hostCode = b 16 % 4 ∧ p.formatPad = b 16 / 4 % 4 ∧ p.storedCode = b 16 / 16 % 8
    ∧ p.order = (if b 16 / 128 = 0 then .rgb else .bgr)
    ∧ p.mirrorX = (b 17).testBit 0 ∧ p.mirrorY = (b 17).testBit 1 ∧ p.accessCode = b 17 / 4 % 4
    ∧ p.key = (if (b 17).testBit 4 = true then some (word 18) else none)
    ∧ p.clip = (if (b 17).testBit 5 = true then some ⟨(pair 22).1, (pair 22).2, (pair 25).1, (pair 25).2⟩ else none)
    ∧ p.tracking = (b 17).testBit 6
    ∧ p.origin = (if (b 17).testBit 7 = true then some (pair 28) else none) := by
  intro b word pair p
  have hword (i : Nat) : le32At d i = word i := by
    simp only [le32At, le16At, byteAt, word, b, show i + 2 + 1 = i + 3 from rfl]
    omega
  refine ⟨parseDescriptor_malformed, hword 0, hword 4, rfl, rfl, rfl, rfl, rfl, rfl, rfl, rfl, rfl, rfl, rfl, ?_, rfl, rfl, rfl⟩
  rw [← hword 18]
  rfl

/-- Settles O18. -/
theorem openWindowCheckOrder : Obligations.OpenWindowCheckOrder := by
  refine ⟨fun d => ?_, Descriptor.rangeCheck_conditions, WindowValues.apart_iff, State.resetOrLoad_iff, fun s b h => ?_⟩
  · exact parseDescriptor_layout d
  · have refused {r : Result} (ht : s.openTarget b = .error r) :
        exec (.openWindow b) s = .next (s.reply [byteOf r.code]) := by rw [exec_openWindow b h, ht]
    refine ⟨fun hb => refused (State.openTarget_badArg hb), fun hr hb => refused (State.openTarget_busy hb hr),
      fun hr d hd => by simp [exec_stageWindow d h, hd, hr], fun n hb hr =>
      ⟨fun hw => refused (State.openTarget_inUse hb hr hw), fun hw hd => refused (State.openTarget_unstaged hb hr hw hd),
        fun d hw hd => ?_⟩⟩
    have checked {r : Result} (hc : openChecks s.table s.port.memSize d = .error r) : s.openTarget b = .error r := by
      rw [State.openTarget_staged hb hr hw hd, hc]
      rfl
    exact ⟨fun hc => refused (checked (openChecks_badArg hc)), fun v hc =>
      ⟨fun hm => refused (checked (openChecks_range hc hm)), fun hm ho => refused (checked (openChecks_overlap hc hm ho))⟩⟩

/-! ### The descriptor of a window's values (R43) -/

theorem byteOf_toNat (n : Nat) : (byteOf n).toNat = n % 256 := rfl

theorem le16At_le16Of {n : Nat} (h : n < 65536) : le16At (le16Of n) 0 = n := by
  show (byteOf n).toNat + 256 * (byteOf (n / 256)).toNat = n
  simp only [byteOf_toNat]
  omega

theorem le32At_le32Of {n : Nat} (h : n < 4294967296) : le32At (le32Of n) 0 = n := by
  show (byteOf n).toNat + 256 * (byteOf (n / 256)).toNat
    + 65536 * ((byteOf (n / 65536)).toNat + 256 * (byteOf (n / 16777216)).toNat) = n
  simp only [byteOf_toNat]
  omega

theorem pairAt_pairOf {x y : Nat} (hx : x < 4096) (hy : y < 4096) : pairAt (pairOf x y) 0 = (x, y) := by
  show ((byteOf x).toNat + 256 * ((byteOf (x / 256 % 16 + y % 16 * 16)).toNat % 16),
    (byteOf (x / 256 % 16 + y % 16 * 16)).toNat / 16 + 16 * (byteOf (y / 16)).toNat) = (x, y)
  simp only [byteOf_toNat, Prod.mk.injEq]
  omega

theorem rectAt_rectOf {r : Rect} (h : r.x0 < 4096 ∧ r.y0 < 4096 ∧ r.x1 < 4096 ∧ r.y1 < 4096) : rectAt (rectOf r) 0 = r := by
  obtain ⟨hx0, hy0, hx1, hy1⟩ := h
  have h0 : pairAt (rectOf r) 0 = (r.x0, r.y0) := pairAt_pairOf hx0 hy0
  have h1 : pairAt (rectOf r) 3 = (r.x1, r.y1) := pairAt_pairOf hx1 hy1
  simp only [rectAt, h0, h1, Nat.zero_add]

/-- The formats byte carries the three codes, with no padding bit set (R13). -/
theorem WindowValues.formatsByte_fields (v : WindowValues) : v.formatsByte.toNat % 4 = v.hostFormat.code
    ∧ v.formatsByte.toNat / 4 % 4 = 0 ∧ v.formatsByte.toNat / 16 % 8 = v.storedFormat.code
    ∧ (if v.formatsByte.toNat / 128 = 0 then ChannelOrder.rgb else .bgr) = v.order := by
  unfold WindowValues.formatsByte
  cases v.hostFormat <;> cases v.storedFormat <;> cases v.order <;> decide

/-- The options byte carries the flags and the access mode (R13). -/
theorem WindowValues.optionsByte_fields (v : WindowValues) : v.optionsByte.getLsbD 0 = v.mirrorX
    ∧ v.optionsByte.getLsbD 1 = v.mirrorY ∧ v.optionsByte.toNat / 4 % 4 = v.access.code
    ∧ v.optionsByte.getLsbD 4 = v.key.isSome ∧ v.optionsByte.getLsbD 5 = v.clip.isSome
    ∧ v.optionsByte.getLsbD 6 = v.tracking ∧ v.optionsByte.getLsbD 7 = v.origin.isSome := by
  unfold WindowValues.optionsByte
  generalize v.key.isSome = key, v.clip.isSome = clip, v.origin.isSome = origin, v.tracking = tracking, v.mirrorX = mirrorX,
    v.mirrorY = mirrorY
  cases v.access <;> revert key clip origin tracking mirrorX mirrorY <;> decide

section Descriptor

variable (v : WindowValues)

/-- The fields of fixed place stand in bytes 0 to 17 (R13). -/
theorem WindowValues.descriptor_fixed : le32At v.descriptor 0 = le32At (le32Of v.hostBase) 0
    ∧ le32At v.descriptor 4 = le32At (le32Of v.memBase) 0 ∧ le16At v.descriptor 8 = le16At (le16Of v.width) 0
    ∧ le16At v.descriptor 10 = le16At (le16Of v.height) 0 ∧ le16At v.descriptor 12 = le16At (le16Of v.pitch) 0
    ∧ le16At v.descriptor 14 = le16At (le16Of v.scroll) 0 ∧ v.descriptor.getD 16 0 = v.formatsByte
    ∧ v.descriptor.getD 17 0 = v.optionsByte := by
  simp [WindowValues.descriptor, WindowValues.descriptorBody, le32Of, le16Of, le32At, le16At, byteAt]

theorem WindowValues.descriptor_key {k : Nat} (hk : v.key = some k) : le32At v.descriptor 18 = le32At (le32Of k) 0 := by
  simp [WindowValues.descriptor, WindowValues.descriptorBody, hk, le32Of, le16Of, le32At, le16At, byteAt]

theorem WindowValues.descriptor_clip {c : Rect} (hc : v.clip = some c) : rectAt v.descriptor 22 = rectAt (rectOf c) 0 := by
  cases hk : v.key <;>
    simp [WindowValues.descriptor, WindowValues.descriptorBody, hk, hc, le32Of, le16Of, rectOf, pairOf, rectAt, pairAt, byteAt]

theorem WindowValues.descriptor_origin {o : Nat × Nat} (ho : v.origin = some o) :
    pairAt v.descriptor 28 = pairAt (pairOf o.1 o.2) 0 := by
  cases hk : v.key <;> cases hc : v.clip <;>
    simp [WindowValues.descriptor, WindowValues.descriptorBody, hk, hc, ho, le32Of, le16Of, rectOf, pairOf, pairAt, byteAt]

/-- The last byte makes the sum of a descriptor's bytes a multiple of 256 (R13). -/
theorem sumBytes_checked (bs : List Byte) : sumBytes (bs ++ [checkByte bs]) % 256 = 0 := by
  have : sumBytes (bs ++ [checkByte bs]) = sumBytes bs + (256 - sumBytes bs % 256) % 256 := by
    simp [sumBytes, checkByte, byteOf_toNat]
  omega

theorem WindowValues.descriptor_wellFormed : (parseDescriptor v.descriptor).malformed = false := by
  rw [Bool.eq_false_iff, ne_eq, parseDescriptor_malformed, v.descriptor_length]
  have := sumBytes_checked v.descriptorBody
  rw [WindowValues.descriptor]
  omega

end Descriptor

/-- A descriptor made from values in range reads back as those values (R13, R43). -/
theorem parseDescriptor_descriptor {v : WindowValues} (hr : v.inRange = true) (hb : v.hostBase < 4294967296)
    (hm : v.memBase < 4294967296) : parseDescriptor v.descriptor =
      { malformed := false, hostBase := v.hostBase, memBase := v.memBase, width := v.width, height := v.height, pitch := v.pitch
        scroll := v.scroll, hostCode := v.hostFormat.code, formatPad := 0, storedCode := v.storedFormat.code, order := v.order
        mirrorX := v.mirrorX, mirrorY := v.mirrorY, accessCode := v.access.code, key := v.key, clip := v.clip
        tracking := v.tracking, origin := v.origin } := by
  obtain ⟨_, _, ⟨_, hw⟩, ⟨_, hh⟩, _, ⟨_, hp⟩, _, hs, hk, hc, _, ho⟩ := WindowValues.inRange_iff.mp hr
  obtain ⟨f1, f2, f3, f4⟩ := v.formatsByte_fields
  obtain ⟨o1, o2, o3, o4, o5, o6, o7⟩ := v.optionsByte_fields
  have key : (if v.optionsByte.getLsbD 4 then some (le32At v.descriptor 18) else none) = v.key := by
    rw [o4]
    cases h : v.key with
    | none => rfl
    | some k =>
      have : v.hostFormat.maxKey ≤ 16777215 := by cases v.hostFormat <;> decide
      rw [v.descriptor_key h, le32At_le32Of (by have := hk k h; omega)]
      rfl
  have clip : (if v.optionsByte.getLsbD 5 then some (rectAt v.descriptor 22) else none) = v.clip := by
    rw [o5]
    cases h : v.clip with
    | none => rfl
    | some c =>
      rw [v.descriptor_clip h, rectAt_rectOf (by have := hc c h; omega)]
      rfl
  have origin : (if v.optionsByte.getLsbD 7 then some (pairAt v.descriptor 28) else none) = v.origin := by
    rw [o7]
    cases h : v.origin with
    | none => rfl
    | some o =>
      obtain ⟨hx, hy⟩ := ho o h
      rw [v.descriptor_origin h, pairAt_pairOf (by omega) (by omega)]
      rfl
  have malformed := v.descriptor_wellFormed
  obtain ⟨hostBase, memBase, width, height, pitch, scroll, formats, options⟩ := v.descriptor_fixed
  rw [le32At_le32Of hb] at hostBase
  rw [le32At_le32Of hm] at memBase
  rw [le16At_le16Of (by omega)] at width height pitch scroll
  generalize v.descriptor = d at *
  have formats' : byteAt d 16 = v.formatsByte.toNat := congrArg BitVec.toNat formats
  simp only [parseDescriptor] at malformed ⊢
  simp only [malformed, hostBase, memBase, width, height, pitch, scroll, formats', options, key, clip, origin, f1, f2, f3, f4,
    o1, o2, o3, o6]

/-- Settles O21. -/
theorem descriptorRoundTrip : Obligations.DescriptorRoundTrip := by
  intro v ⟨hr, hspan, hend, hmem⟩
  obtain ⟨_, _, ⟨hw, _⟩, ⟨hh, _⟩, _, ⟨hp, _⟩, _⟩ := WindowValues.inRange_iff.mp hr
  have hb : v.hostBase < 4294967296 := by
    have : 0 < v.hostSpan := by
      rw [hspan]
      have hpos : 0 < v.width * v.height * v.hostFormat.bytes := by
        refine Nat.mul_pos (Nat.mul_pos hw hh) ?_
        cases v.hostFormat <;> decide
      show 0 < (_ + 4095) / 4096 * 4096
      omega
    omega
  refine ⟨v.descriptor_length, v.descriptor_wellFormed, ?_⟩
  rw [parseDescriptor_descriptor hr hb (by omega), Descriptor.rangeCheck_eq_some]
  refine ⟨rfl, rfl, ?_, hr⟩
  rw [Descriptor.values?_codes (hf := v.hostFormat) (sf := v.storedFormat) (am := v.access) rfl rfl rfl]
  simp only [Descriptor.valuesWith, ← hspan]

/-! ### The commands on an ACTIVE window (R31 to R36) -/

/-- A key of a listed size is taken (R34). -/
theorem key_allowed {v : WindowValues} {k : Word} (h : k.toNat ≤ v.hostFormat.maxKey) :
    ¬ (some k).any (fun x => v.hostFormat.maxKey < x.toNat) = true := by
  simpa using h

theorem clip_allowed {c : PackedRect} {width height : Nat} (h : (unpackRect c).within width height = true) :
    ¬ (some c).any (fun x => !(unpackRect x).within width height) = true := by
  simp [h]

/-- Settles O23. -/
theorem setKeyClipAccess : Obligations.SetKeyClipAccess := by
  intro s b n v h hr hb hw
  have ht : s.activeTarget b = .ok (n, v) := State.activeTarget_ok.mpr ⟨hb, hr, hw⟩
  refine ⟨fun k hk => ?_, ?_, fun c hx hw hy hh => ?_, ?_, ?_, ?_, ?_⟩
  · rw [exec_setKey b (some k) h, ht]
    exact congrArg Host.Outcome.next (if_neg (key_allowed hk))
  · rw [exec_setKey b none h, ht]
    rfl
  · rw [exec_setClip b (some c) h, ht]
    exact congrArg Host.Outcome.next (if_neg (clip_allowed (Rect.within_iff.mpr ⟨hx, hw, hy, hh⟩)))
  · rw [exec_setClip b none h, ht]
    rfl
  · rw [exec_setAccess b 0 h, ht]
    rfl
  · rw [exec_setAccess b 1 h, ht]
    rfl
  · rw [exec_setAccess b 2 h, ht]
    rfl

/-- The commands on an ACTIVE window answer the first common check that fails (R31). -/
theorem exec_of_activeTarget_error {b : Byte} {y : BitVec 16} {k : Option Word} {q : Option PackedRect} {m : Byte}
    {r : PackedRect} {c : Instr} {e : Result} (h : s.ready)
    (hc : c ∈ [Instr.setScroll b y, Instr.setKey b k, Instr.setClip b q, Instr.setAccess b m, Instr.damageAdd b r])
    (ht : s.activeTarget b = .error e) : exec c s = .next (s.reply [byteOf e.code]) := by
  simp only [List.mem_cons, List.not_mem_nil, or_false] at hc
  rcases hc with rfl | rfl | rfl | rfl | rfl
  · rw [exec_setScroll b y h, ht]
  · rw [exec_setKey b k h, ht]
  · rw [exec_setClip b q h, ht]
  · rw [exec_setAccess b m h, ht]
  · rw [exec_damageAdd b r h, ht]

/-- Settles O24. -/
theorem activeWindowCheckOrder : Obligations.ActiveWindowCheckOrder := by
  refine ⟨fun c width height => by rw [Rect.within_iff]; simp [unpackRect, and_assoc], fun s b y k q m r h => ⟨fun c hc => ?_,
    fun n v hb hr hw => ?_⟩⟩
  · exact ⟨fun hb => exec_of_activeTarget_error h hc (State.activeTarget_badArg hb),
      fun hb hr => exec_of_activeTarget_error h hc (State.activeTarget_busy hb hr),
      fun n hb hr hw => exec_of_activeTarget_error h hc (State.activeTarget_badState hb hr hw)⟩
  · have ht : s.activeTarget b = .ok (n, v) := State.activeTarget_ok.mpr ⟨hb, hr, hw⟩
    refine ⟨fun w hk hl => ?_, fun c hq hl => ?_, fun hm => ?_, fun htr => ?_, fun htr hl => ?_⟩
    · obtain rfl : k = some w := hk
      rw [exec_setKey b _ h, ht]
      exact congrArg Host.Outcome.next (if_pos (by simpa using hl))
    · obtain rfl : q = some c := hq
      rw [exec_setClip b _ h, ht]
      exact congrArg Host.Outcome.next (if_pos (by simp [hl]))
    · have hcode : AccessMode.ofCode m.toNat = none :=
        ((AccessMode.ofCode_cases m.toNat).resolve_right fun ⟨a, ha⟩ => by cases a <;> simp [AccessMode.code] at ha <;> omega).2
      rw [exec_setAccess b m h, ht]
      simp only [hcode]
    · rw [exec_damageAdd b r h, ht]
      exact congrArg Host.Outcome.next (if_pos (by simp [htr]))
    · rw [exec_damageAdd b r h, ht]
      exact congrArg Host.Outcome.next ((if_neg (by simp [htr])).trans (if_pos (by simp [hl])))

end Sys2Proof.Machine
end


section
/-!
PROOF. Closing a window and scrolling it (chapter 2), with the region of it that is aborted (R110, R111) and the region that
the mode then chooses (R101).
-/

namespace Sys2Proof.Machine

variable {s t u : State}

/-! ### The region end and the next region (R101) -/

/-- What the region end leaves, and the region that the mode chooses next, while an ABORT message is owed. -/
structure State.NextRegion (s t : State) : Prop where
  answerTimer : t.streamer.answerTimer = none
  link : t.link = s.link
  records : s.sameRecords t
  region : ∀ q ∈ t.streamer.region, (∃ r ∈ s.damage.records, q.window = r.window) ∧ q.begun = false
  free : s.streamer.mode = .free → t.streamer.region.map (fun q => (q.window, q.rect))
    = (s.damage.records.find? Record.isPending).map fun q => (q.window, q.rect)
  passOpen : s.streamer.mode = .gated → s.streamer.passOpen = true → t.streamer.region.map (fun q => (q.window, q.rect))
    = (s.damage.records.find? Record.isMarked).map fun q => (q.window, q.rect)
  passOver : s.streamer.mode = .gated → s.streamer.passOpen = false →
    t.streamer.region = none ∧ t.streamer.state = .waitSync

/-- A record taken while an ABORT message is owed waits with its REGION message (R110). -/
theorem State.withTaken_owed (h : s.link.abortsOwed ≠ 0) (p : Record → Bool) {r : Record} (hr : r ∈ s.damage.records) :
    (s.withTaken p r).link = s.link
      ∧ ∀ q ∈ (s.withTaken p r).streamer.region, (∃ r ∈ s.damage.records, q.window = r.window) ∧ q.begun = false := by
  refine ⟨?_, ?_⟩
  · simp [State.withTaken, h]
  · rintro q hq
    obtain rfl := Option.some.inj hq
    exact ⟨⟨r, hr, rfl⟩, beq_false_of_ne h⟩

/-- The streamer rests, with no region (R101). -/
def State.rested (s : State) (state : StreamState) (passOpen : Bool) : State :=
  { s with streamer := { s.streamer with region := none, answerTimer := none, state := state, passOpen := passOpen } }

/-- A region end ends in rest or takes the record that the mode chooses (R98, R100, R101). -/
theorem State.regionOver_cases (s : State) :
    (s.streamer.mode = .off ∧ s.regionOver = s.rested .off s.streamer.passOpen)
    ∨ (s.streamer.mode = .free ∧ s.damage.records.find? Record.isPending = none
        ∧ s.regionOver = s.rested .idle s.streamer.passOpen)
    ∨ (s.streamer.mode = .gated ∧ s.streamer.passOpen = false ∧ s.regionOver = s.rested .waitSync s.streamer.passOpen)
    ∨ (s.streamer.mode = .gated ∧ s.streamer.passOpen = true ∧ s.damage.records.find? Record.isMarked = none
        ∧ s.regionOver = s.rested .waitSync false)
    ∨ ∃ p r, s.damage.records.find? p = some r
        ∧ (s.streamer.mode = .free ∧ p = Record.isPending
          ∨ s.streamer.mode = .gated ∧ s.streamer.passOpen = true ∧ p = Record.isMarked)
        ∧ s.regionOver = State.withTaken { s with streamer := { s.streamer with region := none, answerTimer := none } } p r := by
  cases hm : s.streamer.mode with
  | off => exact .inl ⟨rfl, by simp [State.regionOver, State.rested, hm]⟩
  | free =>
    cases hf : s.damage.records.find? Record.isPending with
    | none => exact .inr (.inl ⟨rfl, rfl, by simp [State.regionOver, State.rested, hm, hf]⟩)
    | some r => exact .inr (.inr (.inr (.inr ⟨_, r, hf, .inl ⟨rfl, rfl⟩, by simp [State.regionOver, hm, hf]⟩)))
  | gated =>
    cases ho : s.streamer.passOpen with
    | false => exact .inr (.inr (.inl ⟨rfl, rfl, by simp [State.regionOver, State.rested, hm, ho]⟩))
    | true =>
      cases hf : s.damage.records.find? Record.isMarked with
      | none => exact .inr (.inr (.inr (.inl ⟨rfl, rfl, rfl, by simp [State.regionOver, State.rested, hm, ho, hf]⟩)))
      | some r => exact .inr (.inr (.inr (.inr ⟨_, r, hf, .inr ⟨rfl, rfl, rfl⟩, by simp [State.regionOver, hm, ho, hf]⟩)))

theorem State.regionOver_next (h : s.link.abortsOwed ≠ 0) : s.NextRegion s.regionOver := by
  have hrecords : s.sameRecords s.regionOver := s.regionEnd_eq_regionOver ▸ s.regionEnd_records
  rcases s.regionOver_cases with ⟨hm, heq⟩ | ⟨hm, hf, heq⟩ | ⟨hm, ho, heq⟩ | ⟨hm, ho, hf, heq⟩ | ⟨p, r, hf, hp, heq⟩ <;>
    rw [heq] at hrecords ⊢
  · exact ⟨rfl, rfl, hrecords, nofun, by simp [hm], by simp [hm], by simp [hm]⟩
  · exact ⟨rfl, rfl, hrecords, nofun, by simp [hf, State.rested], by simp [hm], by simp [hm]⟩
  · exact ⟨rfl, rfl, hrecords, nofun, by simp [hm], by simp [ho], fun _ _ => ⟨rfl, rfl⟩⟩
  · exact ⟨rfl, rfl, hrecords, nofun, by simp [hm], by simp [hf, State.rested], by simp [ho]⟩
  · obtain ⟨hlink, hregion⟩ := State.withTaken_owed (s := { s with streamer := { s.streamer with
      region := none, answerTimer := none } }) h p (List.mem_of_find?_eq_some hf)
    refine ⟨rfl, hlink, hrecords, hregion, fun hfree => ?_, fun hgated ho => ?_, fun hgated ho => ?_⟩
    · rcases hp with ⟨_, rfl⟩ | ⟨hm, _⟩
      · rw [hf]
        rfl
      · exact absurd (hm.symm.trans hfree) (by decide)
    · rcases hp with ⟨hm, _⟩ | ⟨_, _, rfl⟩
      · exact absurd (hm.symm.trans hgated) (by decide)
      · rw [hf]
        rfl
    · rcases hp with ⟨hm, _⟩ | ⟨_, hopen, _⟩
      · exact absurd (hm.symm.trans hgated) (by decide)
      · exact absurd (hopen.symm.trans ho) (by decide)

/-! ### The close (R28, R30) -/

theorem HostPort.writeBeatOf_iff {h : HostPort} {n : Fin 8} :
    h.writeBeatOf n = true ↔ ∃ lanes run, h.action = some (.write (.window n) lanes run) := by
  unfold HostPort.writeBeatOf
  rcases h.action with _ | (⟨c, lanes, run⟩ | ⟨c, words, answered⟩)
  all_goals simp

theorem State.drainComplete_iff {n : Fin 8} : s.drainComplete n = true
    ↔ (∀ e ∈ s.merge.entries, e.creator ≠ .window n) ∧ s.host.writeBeatOf n = false := by
  simp [State.drainComplete]

theorem State.regionOf_iff {n : Fin 8} : s.regionOf n = true ↔ ∃ r, s.streamer.region = some r ∧ r.window = n := by
  unfold State.regionOf
  cases s.streamer.region <;> simp

/-- The entries of a window flush-marked (R28, R68). -/
def State.entriesMarked (s : State) (n : Fin 8) : List Entry :=
  s.merge.entries.map fun e => if e.creator = .window n then { e with flushMark := true } else e

theorem State.entriesMarked_none {n : Fin 8} (h : ∀ e ∈ s.merge.entries, e.creator ≠ .window n) :
    s.entriesMarked n = s.merge.entries :=
  (List.map_congr_left fun e he => if_neg (h e he)).trans (List.map_id _)

theorem State.mark_entriesMarked (n : Fin 8) :
    s.merge.mark (fun e => e.creator == .window n) = { s.merge with entries := s.entriesMarked n } := by
  simp [MergeQueue.mark, State.entriesMarked]

/-- The close of window n taken in the slot, its entries flush-marked (R28, R68). -/
def State.closing (s : State) (n : Fin 8) : State :=
  State.setSlot { s with merge := s.merge.mark fun e => e.creator == .window n } (some (.closeWindow n))

theorem State.closing_drainComplete (n : Fin 8) : (s.closing n).drainComplete n = s.drainComplete n := by
  have hmark (e : Entry) : (if e.creator == .window n then { e with flushMark := true } else e).creator = e.creator := by
    split <;> rfl
  simp only [State.closing, State.drainComplete, State.setSlot, MergeQueue.mark, List.all_map, Function.comp_def, hmark]

/-- A close not yet complete waits in the slot (R28, R30). -/
theorem settle_closing_waits {n : Fin 8} (h : s.drainComplete n = false) : (s.closing n).settle [] = State.chooseDrain { s with
    merge := { s.merge with entries := s.entriesMarked n }
    mgmt := { s.mgmt with slot := some (.closeWindow n) } } := by
  rw [State.settle_close_waits rfl (by rwa [State.closing_drainComplete]), State.postTogether_nil, State.closing,
    State.mark_entriesMarked]
  rfl

/-- A close with nothing left to drain ends at once (R30). -/
theorem settle_closing_done {n : Fin 8} (h : s.drainComplete n = true) (hs : s.mgmt.slot = none) :
    (s.closing n).settle [] = ((s.setWindow n .unused).post (.opDone 0x12 .done)).chooseDrain := by
  rw [State.settle_close_done rfl (by rwa [State.closing_drainComplete])]
  have hentries := State.entriesMarked_none (State.drainComplete_iff.mp h).1
  have hclosing : ((s.closing n).setWindow n .unused).setSlot none = s.setWindow n .unused := by
    rw [State.closing, State.mark_entriesMarked, hentries]
    simp [State.setWindow, State.setSlot, ← hs]
  rw [hclosing]
  rfl

theorem State.setWindow_setWindow (n : Fin 8) (w w' : Window) : (s.setWindow n w).setWindow n w' = s.setWindow n w' := by
  simp [State.setWindow]

section Close

variable {b : Byte} {n : Fin 8} {v : WindowValues} (h : s.ready) (hb : b.toNat = n.val) (hs : s.mgmt.slot = none)
  (hw : s.window n = .active v)
include h hb hs hw

/-- CLOSE_WINDOW taken (R28). -/
theorem exec_closeWindow_taken :
    exec (.closeWindow b) s = .next (State.reply (State.settle (((s.setWindow n (.draining v)).closeDamage n).closing n) []) [0x01]) := by
  rw [exec_closeWindow b h, windowNumber_eq_some.mpr hb]
  simp only [hs, Option.isSome_none, Bool.false_eq_true, if_false, hw, Window.active?]
  rfl

/-- What CLOSE_WINDOW answers from the state in which the window's damage is gone (R28, R30, R68). -/
theorem exec_closeWindow_damaged (hu : (s.setWindow n (.draining v)).closeDamage n = u) :
    (s.drainComplete n = false → exec (.closeWindow b) s = .next (State.reply (State.chooseDrain { u with
      merge := { s.merge with entries := s.entriesMarked n }
      mgmt := { s.mgmt with slot := some (.closeWindow n) } }) [0x01]))
    ∧ (s.drainComplete n = true → exec (.closeWindow b) s
        = .next (State.reply (State.chooseDrain ((u.setWindow n .unused).post (.opDone 0x12 .done))) [0x01])) := by
  rw [exec_closeWindow_taken h hb hs hw, hu]
  have hframe := ((s.setWindow n (.draining v)).closeDamage_frame n).1
  rw [hu] at hframe
  have hmerge : u.merge = s.merge := by rw [hframe]; rfl
  have hhost : u.host = s.host := by rw [hframe]; rfl
  have hmgmt : u.mgmt = s.mgmt := by rw [hframe]; rfl
  have hdrain : u.drainComplete n = s.drainComplete n := by simp only [State.drainComplete, hmerge, hhost]
  refine ⟨fun hd => ?_, fun hd => ?_⟩
  · rw [settle_closing_waits (hdrain.trans hd), State.entriesMarked, hmerge, hmgmt, State.entriesMarked]
  · rw [settle_closing_done (hdrain.trans hd) (hmgmt ▸ hs)]

end Close

theorem exec_closeDrainComplete {n : Fin 8} (hs : s.mgmt.slot = some (.closeWindow n)) : exec .closeDrainComplete s
    = .next (if s.drainComplete n = true then ((s.setWindow n .unused).setSlot none).post closeDone else s) := by
  show execCloseDrainComplete s = _
  rw [execCloseDrainComplete, State.closeEnd?, hs]
  by_cases hd : s.drainComplete n = true <;> simp [hd]

/-- Settles O19. -/
theorem closeWindowTaken : Obligations.CloseWindowTaken := by
  refine ⟨fun s n => ⟨HostPort.writeBeatOf_iff, State.drainComplete_iff, State.regionOf_iff⟩, fun s n hs => ⟨fun he hw => ?_,
    fun hd => ?_⟩, fun s b h => ⟨fun hb => ?_, fun hb hs => ?_, fun n hb hs => ⟨fun hw => ?_, fun v hw hr => ?_⟩⟩⟩
  · rw [exec_closeDrainComplete hs, if_pos (State.drainComplete_iff.mpr ⟨he, hw⟩)]
    rfl
  · have hopen : ¬ s.drainComplete n = true := by
      rw [State.drainComplete_iff]
      rintro ⟨he, hw⟩
      rcases hd with ⟨e, hmem, hc⟩ | hd
      · exact he e hmem hc
      · exact absurd (hw.symm.trans hd) (by decide)
    rw [exec_closeDrainComplete hs, if_neg hopen]
  · rw [exec_closeWindow b h, windowNumber_eq_none.mpr hb]
  · rw [exec_closeWindow b h, windowNumber_eq_some (n := ⟨b.toNat, hb⟩) |>.mpr rfl]
    exact congrArg Host.Outcome.next (if_pos hs)
  · rw [exec_closeWindow b h, windowNumber_eq_some.mpr hb]
    simp only [hs, Option.isSome_none, Bool.false_eq_true, if_false, Window.active?_eq_none.mpr hw]
  · intro undamaged
    have hu : (s.setWindow n (.draining v)).closeDamage n = undamaged.setWindow n (.draining v) := by
      rw [State.closeDamage, if_neg (by rw [show (s.setWindow n (.draining v)).regionOf n = s.regionOf n from rfl, hr]; decide)]
      rfl
    obtain ⟨hwaits, hdone⟩ := exec_closeWindow_damaged h hb hs hw hu
    rw [State.setWindow_setWindow] at hdone
    exact ⟨hwaits, hdone⟩

theorem State.abortRegion_eq (s : State) : s.abortRegion = { s with
    link := { s.link with abortsOwed := s.link.abortsOwed + 1 }
    streamer := { s.streamer with region := none, answerTimer := none }
    port := { s.port with
      streamWait := if s.streamRequest? ≠ none then 0 else s.port.streamWait
      access := s.port.access.map fun a => if a.requester = .stream then { a with abandoned := true } else a } } := by
  have hsome : (if s.streamRequest?.isSome then 0 else s.port.streamWait)
      = if s.streamRequest? ≠ none then 0 else s.port.streamWait := by
    cases s.streamRequest? <;> rfl
  simp only [State.abortRegion, hsome, beq_iff_eq]

/-- A STREAM access in flight at an abort is abandoned (R110, R138). -/
theorem State.abortRegion_abandons (s : State) :
    ∀ a ∈ s.abortRegion.port.access, a.requester = .stream → a.abandoned = true := by
  intro a ha hs
  obtain ⟨a', _, rfl⟩ := Option.map_eq_some_iff.mp ha
  by_cases h : (a'.requester == .stream) = true
  · simp [h]
  · simp only [h] at hs
    exact absurd hs (by simpa using h)

theorem State.entriesMarked_flushMark (n : Fin 8) : ∀ e ∈ s.entriesMarked n, e.creator = .window n → e.flushMark = true := by
  intro e he hc
  obtain ⟨a, _, rfl⟩ := List.mem_map.mp he
  by_cases h : a.creator = .window n
  · simp [h]
  · simp only [h, if_false] at hc

/-- The drain choice leaves the creators and the flush marks (R55, R56). -/
theorem State.mem_chooseDrain {e : Entry} (h : e ∈ s.chooseDrain.merge.entries) :
    ∃ a ∈ s.merge.entries, e.creator = a.creator ∧ e.flushMark = a.flushMark := by
  unfold State.chooseDrain at h
  split at h
  · exact ⟨e, h, rfl, rfl⟩
  · rcases mem_modifyFirst h with h | ⟨a, ha, _, rfl⟩
    · exact ⟨e, h, rfl, rfl⟩
    · exact ⟨a, ha, rfl, rfl⟩

/-! ### The drain choice changes the merge queue alone -/

@[simp] theorem State.chooseDrain_table (s : State) : s.chooseDrain.table = s.table := by rw [State.chooseDrain_merge]

@[simp] theorem State.chooseDrain_damage (s : State) : s.chooseDrain.damage = s.damage := by rw [State.chooseDrain_merge]

@[simp] theorem State.chooseDrain_streamer (s : State) : s.chooseDrain.streamer = s.streamer := by rw [State.chooseDrain_merge]

@[simp] theorem State.chooseDrain_link (s : State) : s.chooseDrain.link = s.link := by rw [State.chooseDrain_merge]

@[simp] theorem State.chooseDrain_port (s : State) : s.chooseDrain.port = s.port := by rw [State.chooseDrain_merge]

@[simp] theorem State.chooseDrain_host (s : State) : s.chooseDrain.host = s.host := by rw [State.chooseDrain_merge]

@[simp] theorem State.chooseDrain_mgmt (s : State) : s.chooseDrain.mgmt = s.mgmt := by rw [State.chooseDrain_merge]

@[simp] theorem State.chooseDrain_events (s : State) : s.chooseDrain.events = s.events := by rw [State.chooseDrain_merge]

@[simp] theorem State.chooseDrain_store (s : State) : s.chooseDrain.store = s.store := by rw [State.chooseDrain_merge]

theorem State.window_of_table {n : Fin 8} (h : t.table = s.table) : t.window n = s.window n := by
  simp only [State.window, h]

/-! ### The close of the current record's window (R110, R111) -/

/-- Settles O20. -/
theorem closeAbortsRegion : Obligations.CloseAbortsRegion := by
  refine ⟨State.abortRegion_eq, fun s b n v r h hb hs hw hr hn => ?_⟩
  intro left moved
  have hregion : (s.setWindow n (.draining v)).regionOf n = true := State.regionOf_iff.mpr ⟨r, hr, hn⟩
  have hu : (s.setWindow n (.draining v)).closeDamage n = moved := by
    rw [State.closeDamage, if_pos hregion, State.regionEnd_eq_regionOver]
    rfl
  obtain ⟨hwaits, hdone⟩ := exec_closeWindow_damaged h hb hs hw hu
  refine ⟨hwaits, hdone, ?_⟩
  let aborted : State := { (s.setWindow n (.draining v)).abortRegion with damage := { s.damage with records := left } }
  have hnext : State.NextRegion aborted moved := State.regionOver_next (s := aborted) (Nat.succ_ne_zero _)
  have hframe : moved = { aborted with damage := moved.damage, streamer := moved.streamer, link := moved.link } := by
    have := State.regionEnd_only aborted
    rwa [State.regionEnd_eq_regionOver] at this
  have hleft : ∀ q ∈ left, q.window ≠ n := fun q hq => by simpa [left] using (List.mem_filter.mp hq).2
  have hrecords : ∀ q ∈ moved.damage.records, q.window ≠ n := fun q hq => by
    obtain ⟨a, ha, hc⟩ := hnext.records.mem hq
    exact congrArg Record.window hc ▸ hleft a ha
  have hregions : ∀ q ∈ moved.streamer.region, q.window ≠ n ∧ q.begun = false := fun q hq => by
    obtain ⟨⟨a, ha, hc⟩, hbegun⟩ := hnext.region q hq
    exact ⟨hc ▸ hleft a ha, hbegun⟩
  have hport : ∀ a ∈ moved.port.access, a.requester = .stream → a.abandoned = true := by
    rw [hframe]
    exact (s.setWindow n (.draining v)).abortRegion_abandons
  have howed : moved.link.abortsOwed = s.link.abortsOwed + 1 ∧ moved.link.log = s.link.log := by
    rw [hnext.link]
    exact ⟨rfl, rfl⟩
  have hrest : moved.events = s.events ∧ moved.mgmt = s.mgmt ∧ moved.table = (s.setWindow n (.draining v)).table := by
    rw [hframe]
    exact ⟨rfl, rfl, rfl⟩
  obtain ⟨hevents, hmgmt, htable⟩ := hrest
  have hwindow : moved.window n = .draining v := (State.window_of_table htable).trans (s.setWindow_same n _)
  cases hd : s.drainComplete n with
  | false =>
    refine ⟨_, hwaits hd, rfl, ?_⟩
    simp only [State.reply_streamer, State.reply_link, State.reply_port, State.reply_damage, State.reply_merge,
      State.reply_events, State.reply_mgmt_slot, State.chooseDrain_streamer, State.chooseDrain_link, State.chooseDrain_port,
      State.chooseDrain_damage, State.chooseDrain_events, State.chooseDrain_mgmt]
    refine ⟨hnext.answerTimer, fun _ => ⟨?_, trivial, fun e he hc => ?_, hevents⟩, nofun, howed.1, howed.2, hport, hrecords, hregions,
      hnext.free, hnext.passOpen, hnext.passOver⟩
    · exact (State.window_of_table (s := moved) (by simp)).trans hwindow
    · obtain ⟨a, ha, hca, hfa⟩ := State.mem_chooseDrain he
      exact hfa.trans (s.entriesMarked_flushMark n a ha (hca ▸ hc))
  | true =>
    refine ⟨_, hdone hd, rfl, ?_⟩
    simp only [State.reply_streamer, State.reply_link, State.reply_port, State.reply_damage, State.reply_merge,
      State.reply_events, State.reply_mgmt_slot, State.chooseDrain_streamer, State.chooseDrain_link, State.chooseDrain_port,
      State.chooseDrain_damage, State.chooseDrain_events, State.chooseDrain_mgmt]
    refine ⟨hnext.answerTimer, nofun, fun _ => ⟨?_, ?_⟩, howed.1, howed.2, hport, hrecords, hregions,
      hnext.free, hnext.passOpen, hnext.passOver⟩
    · exact (State.window_of_table (s := moved.setWindow n .unused) (by simp)).trans (moved.setWindow_same n _)
    · exact (congrArg Management.slot hmgmt).trans hs

/-! ### SET_SCROLL (R32, R33, R87) -/

/-- Where the first selected record is known, replacing puts the new one in its place. -/
theorem replaceAll_first {p : Record → Bool} {r : Record} {before after : List Record} (hb : ∀ b ∈ before, p b = false)
    (hr : p r = true) (new : Record) :
    replaceAll p new (before ++ r :: after) = before ++ new :: after.filter fun q => !p q := by
  induction before with
  | nil => simp [replaceAll, hr]
  | cons a before ih =>
    have ha := hb a (by simp)
    simp [replaceAll, ha, ih fun b h => hb b (by simp [h])]

theorem DamageList.replaceWindow_first {l : DamageList} {n : Fin 8} {r : Record} {before after : List Record}
    (hl : l.records = before ++ r :: after) (hb : ∀ p ∈ before, p.window ≠ n) (hr : r.window = n) (full : Rect) :
    l.replaceWindow n full = ⟨before ++ ⟨n, full, .pending, l.records.any (fun p => p.window == n && p.mark), l.nextTouch⟩
      :: after.filter (fun p => p.window != n), l.nextTouch + 1⟩ := by
  rw [DamageList.replaceWindow, hl, replaceAll_first (by simpa using hb) (by simpa using hr)]
  rfl

/-- Of the window's records one is left, with the full rectangle (R33, R87). -/
theorem DamageList.replaceWindow_own {l : DamageList} {n : Fin 8} (h : l.records.any (fun r => r.window == n) = true)
    (full : Rect) : ((l.replaceWindow n full).records.filter fun r => r.window == n).map Record.rect = [full] := by
  rcases replaceAll_split (fun r => r.window == n)
    ⟨n, full, .pending, l.records.any (fun r => r.window == n && r.mark), l.nextTouch⟩ l.records with
    ⟨hn, _⟩ | ⟨before, r, after, _, hb, _, heq⟩
  · obtain ⟨r, hr, hw⟩ := List.any_eq_true.mp h
    exact absurd (hw.symm.trans (hn r hr)) (by decide)
  · have hbefore : before.filter (fun r => r.window == n) = [] := by
      rw [List.filter_eq_nil_iff]
      exact fun b hmem => by simp [hb b hmem]
    simp [DamageList.replaceWindow, heq, List.filter_append, hbefore, List.filter_filter]

/-- The records of the other windows are left alone (R87). -/
theorem DamageList.replaceWindow_others (l : DamageList) (n : Fin 8) (full : Rect) :
    (l.replaceWindow n full).records.filter (fun r => r.window != n) = l.records.filter fun r => r.window != n :=
  replaceAll_filter_other (by simp) fun r _ hr => by simpa using hr

/-- The selection by window and the parts of a record but for its state survive the streamer's taking. -/
theorem State.sameRecords.filter_map {α : Type} (h : s.sameRecords t) (n : Fin 8 → Bool) (f : Record → α)
    (hf : ∀ r, f r.core = f r) :
    (t.damage.records.filter fun r => n r.window).map f = (s.damage.records.filter fun r => n r.window).map f := by
  have core (rs : List Record) :
      (rs.filter fun r => n r.window).map f = ((rs.map Record.core).filter fun r => n r.window).map f := by
    rw [List.filter_map, List.map_map]
    exact List.map_congr_left fun r _ => (hf r).symm
  rw [core t.damage.records, h.1, ← core]

/-- Settles O22. -/
theorem setScrollEffects : Obligations.SetScrollEffects := by
  intro s b y n v h hr hb hw moved full
  have ht : s.activeTarget b = .ok (n, v) := State.activeTarget_ok.mpr ⟨hb, hr, hw⟩
  have taken (hy : y.toNat < v.height) : exec (.setScroll b y) s = .next ((s.changeScroll n v y.toNat).reply [0x00]) := by
    rw [exec_setScroll b y h, ht]
    exact congrArg Host.Outcome.next (if_neg (by omega))
  have scrolled (hy : y.toNat < v.height) (hne : y.toNat ≠ v.scroll) : exec (.setScroll b y) s
      = .next ((moved.scrollDamage n { v with scroll := y.toNat }).reply [0x00]) := by
    rw [taken hy, State.changeScroll, if_neg hne]
  have hmoved : moved.regionOf n = s.regionOf n := rfl
  have hdamage : moved.damage = s.damage := rfl
  have replaced (htr : v.tracking = true) (hreg : s.regionOf n = false)
      (hany : s.damage.records.any (fun r => r.window == n) = true) :
      moved.scrollDamage n { v with scroll := y.toNat } = { moved with damage := s.damage.replaceWindow n full } := by
    rw [State.scrollDamage, if_neg (by simp [htr]), if_neg (by rw [hmoved, hreg]; decide),
      if_pos (by rw [hdamage, hany])]
    rfl
  have aborted (htr : v.tracking = true) (hreg : s.regionOf n = true) : moved.scrollDamage n { v with scroll := y.toNat }
      = State.regionOver { moved.abortRegion with damage := s.damage.replaceWindow n full } := by
    rw [State.scrollDamage, if_neg (by simp [htr]), if_pos (hmoved.trans hreg), State.regionEnd_eq_regionOver]
    rfl
  refine ⟨fun hy => ?_, fun hy he => ?_, fun hy hne htr => ?_, fun hy hne htr before r after hl hbefore hrn => ?_,
    fun hy hne htr hany => ?_, fun hy hne htr hreg hany => ?_⟩
  · rw [exec_setScroll b y h, ht]
    exact congrArg Host.Outcome.next (if_pos hy)
  · rw [taken hy, State.changeScroll, if_pos he]
  · rw [scrolled hy hne, State.scrollDamage, if_pos (by simp [htr])]
  · intro whole
    have hwhole : s.damage.replaceWindow n full = whole := DamageList.replaceWindow_first hl hbefore hrn full
    have hany : s.damage.records.any (fun r => r.window == n) = true :=
      List.any_eq_true.mpr ⟨r, by simp [hl], by simpa using hrn⟩
    refine ⟨fun hreg => ?_, fun hreg => ?_⟩
    · rw [scrolled hy hne, replaced htr hreg hany, hwhole]
    · rw [scrolled hy hne, aborted htr hreg, hwhole]
  · refine ⟨_, scrolled hy hne, ?_⟩
    have own := DamageList.replaceWindow_own hany full
    have others := s.damage.replaceWindow_others n full
    have hwindow : moved.window n = .active { v with scroll := y.toNat } := s.setWindow_same n _
    cases hreg : s.regionOf n with
    | false =>
      rw [replaced htr hreg hany]
      exact ⟨hwindow, own, congrArg (List.map fun r : Record => (r.window, r.rect, r.mark)) others, rfl, nofun, rfl, rfl, rfl⟩
    | true =>
      rw [aborted htr hreg]
      generalize hx : { moved.abortRegion with damage := s.damage.replaceWindow n full } = x
      have hnext : x.NextRegion x.regionOver := State.regionOver_next (by rw [← hx]; exact Nat.succ_ne_zero _)
      have hframe : x.regionOver = { x with
          damage := x.regionOver.damage, streamer := x.regionOver.streamer, link := x.regionOver.link } := by
        have := State.regionEnd_only x
        rwa [State.regionEnd_eq_regionOver] at this
      have hrest : x.regionOver.table = moved.table ∧ x.regionOver.port = moved.abortRegion.port
          ∧ x.regionOver.merge = s.merge ∧ x.regionOver.events = s.events ∧ x.regionOver.host = s.host := by
        rw [hframe, ← hx]
        exact ⟨rfl, rfl, rfl, rfl, rfl⟩
      obtain ⟨htable, hport, hmerge, hevents, hhost⟩ := hrest
      have hrecords : x.damage.records = (s.damage.replaceWindow n full).records := by rw [← hx]
      refine ⟨(State.window_of_table (s := moved) htable).trans hwindow, ?_, ?_, ?_, fun _ => ?_, hmerge, hevents, hhost⟩
      · exact (hnext.records.filter_map (fun w => w == n) Record.rect fun _ => rfl).trans (by rw [hrecords, own])
      · exact (hnext.records.filter_map (fun w => w != n) (fun r => (r.window, r.rect, r.mark)) fun _ => rfl).trans
          (by rw [hrecords, others])
      · rw [State.reply_link, hnext.link, ← hx]
        rfl
      · rw [State.reply_port, hport]
        exact moved.abortRegion_abandons
  · rw [scrolled hy hne, State.scrollDamage, if_neg (by simp [htr]), if_neg (by rw [hmoved, hreg]; decide),
      if_neg (by rw [hdamage, hany]; decide)]
    rfl

end Sys2Proof.Machine
end


section
/-!
PROOF. The merge queue's commands (chapter 3): FLUSH, QUEUE_CONFIG, the urgency and the drain choice, and ENTRY_DUE.
-/

namespace Sys2Proof.Machine

variable {s t : State}

/-! ### FLUSH (R65, R66) -/

theorem flushSelection_none {b : Byte} (hb : 8 ≤ b.toNat) (h : b ≠ 0xFF) : flushSelection b = none := by
  rw [flushSelection, windowNumber_eq_none.mpr hb]
  exact if_neg h

theorem flushSelection_some {b : Byte} {sel : Option (Fin 8)}
    (h : (sel = none ∧ b = 0xFF) ∨ ∃ n, sel = some n ∧ b.toNat = n.val) : flushSelection b = some sel := by
  rcases h with ⟨rfl, rfl⟩ | ⟨n, rfl, hb⟩
  · rfl
  · rw [flushSelection, windowNumber_eq_some.mpr hb]

theorem flushSelection_names {b : Byte} (h : b.toNat < 8 ∨ b = 0xFF) : ∃ sel, flushSelection b = some sel := by
  rcases h with h | rfl
  · exact ⟨_, flushSelection_some (.inr ⟨⟨b.toNat, h⟩, rfl, rfl⟩)⟩
  · exact ⟨_, flushSelection_some (.inl ⟨rfl, rfl⟩)⟩

theorem selects_eq (sel : Option (Fin 8)) : selects sel = fun e => sel.all fun n => e.creator == .window n := by
  cases sel <;> rfl

theorem exec_flushComplete : exec .flushComplete s = .next (match s.flushEnd? with
    | some t => t.post flushDone
    | none => s) := rfl

/-- A FLUSH that waits for entries (R65). -/
theorem State.startFlush_waits {sel : Option (Fin 8)} (h : s.merge.entries.any (selects sel) = true) :
    s.startFlush sel = State.chooseDrain { s with
      merge := { s.merge with entries := s.merge.entries.map fun e => if selects sel e = true then { e with flushMark := true } else e }
      mgmt := { s.mgmt with slot := some (.flush sel ((s.merge.entries.filter (selects sel)).map Entry.word)) } } := by
  unfold State.startFlush
  cases hw : (s.merge.entries.filter (selects sel)).map Entry.word with
  | nil =>
    rw [List.map_eq_nil_iff, List.filter_eq_nil_iff] at hw
    obtain ⟨e, he, hs⟩ := List.any_eq_true.mp h
    exact absurd hs (hw e he)
  | cons a ws =>
    rw [State.settle_flush_waits (sel := sel) (a := a) (ws := ws) rfl]
    rfl

/-- A FLUSH of no entry ends at once (R66). -/
theorem State.startFlush_done {sel : Option (Fin 8)} (hs : s.mgmt.slot = none) (h : s.merge.entries.any (selects sel) = false)
    (hd : DrainChosen s) : s.startFlush sel = s.post (.opDone 0x20 .done) := by
  rw [List.any_eq_false] at h
  have hwait : s.merge.entries.filter (selects sel) = [] := List.filter_eq_nil_iff.mpr h
  have hmark : s.merge.mark (selects sel) = s.merge := by
    have : s.merge.entries.map (fun e => if selects sel e = true then { e with flushMark := true } else e) = s.merge.entries :=
      (List.map_congr_left fun e he => if_neg (h e he)).trans (List.map_id _)
    rw [MergeQueue.mark, this]
  have hsame : State.setSlot (State.setSlot { s with merge := s.merge.mark (selects sel) } (some (.flush sel []))) none = s := by
    rw [hmark]
    simp only [State.setSlot, ← hs]
  unfold State.startFlush
  simp only [hwait, List.map_nil]
  rw [State.settle_flush_done (sel := sel) rfl, hsame]
  exact hd.of_same rfl (s.post_urgent _)

/-- Settles O25. -/
theorem flushMarksAndCompletes : Obligations.FlushMarksAndCompletes := by
  intro s b h
  refine ⟨fun hb hne => ?_, fun hb hs => ?_, fun sel hsel hs => ?_, fun sel hs => ?_, fun sel a ws hs => ?_⟩
  · rw [exec_flush b h, flushSelection_none hb hne]
  · obtain ⟨sel, hsel⟩ := flushSelection_names hb
    rw [exec_flush b h, hsel]
    exact congrArg Host.Outcome.next (if_pos hs)
  · intro covers marked
    have hcovers : selects sel = covers := selects_eq sel
    have taken : exec (.flush b) s = .next ((s.startFlush sel).reply [0x01]) := by
      rw [exec_flush b h, flushSelection_some hsel]
      exact congrArg Host.Outcome.next (if_neg (by simp [hs]))
    refine ⟨fun hany => ?_, fun hany hd => ?_⟩
    · rw [taken, State.startFlush_waits (hcovers ▸ hany), hcovers]
    · rw [taken, State.startFlush_done hs (hcovers ▸ hany) hd]
  · rw [exec_flushComplete, State.flushEnd?, hs]
    rfl
  · rw [exec_flushComplete, State.flushEnd?, hs]

/-- Settles O26. -/
theorem queueConfigApplies : Obligations.QueueConfigApplies := by
  intro s hw lg h
  rw [exec_queueConfig hw lg h]
  exact ⟨fun h1 h16 => congrArg Host.Outcome.next (if_neg (by omega)), fun hbad => congrArg Host.Outcome.next (if_pos hbad)⟩

/-! ### Urgency (R54) -/

/-- The words of a beat without an entry, as the queue counts them (R49). -/
theorem MergeQueue.lacks_newWords (q : MergeQueue) (lanes : List LaneWrite) : q.lacks lanes (q.newWords lanes) := by
  obtain ⟨hsorted, hmem⟩ := beatWords_spec lanes
  refine ⟨(hsorted.imp fun h => Nat.ne_of_lt h).filter _, fun a => ?_⟩
  rw [MergeQueue.newWords, List.mem_filter, hmem, q.entry?_isNone]
  simp

theorem MergeQueue.lacks.length_eq {q : MergeQueue} {lanes : List LaneWrite} {words : List Nat} (h : q.lacks lanes words) :
    (q.newWords lanes).length = words.length := by
  obtain ⟨hnodup, hmem⟩ := q.lacks_newWords lanes
  refine List.Perm.length_eq ((List.perm_ext_iff_of_nodup hnodup h.1).mpr fun a => ?_)
  rw [hmem, h.2]

theorem MergeQueue.lacksRoom_iff {q : MergeQueue} {lanes : List LaneWrite} {words : List Nat} (h : q.lacks lanes words) :
    q.lacksRoom lanes = true ↔ 16 - q.entries.length < words.length := by
  rw [← h.length_eq]
  show decide (16 - q.entries.length < (q.newWords lanes).length) = true ↔ _
  exact decide_eq_true_iff

theorem State.waitsForRoom_iff : s.waitsForRoom = true ↔ ∃ c lanes run words, s.host.action = some (.write c lanes run)
    ∧ s.merge.lacks lanes words ∧ 16 - s.merge.entries.length < words.length := by
  unfold State.waitsForRoom
  rcases s.host.action with _ | (⟨c, lanes, run⟩ | ⟨c, words, answered⟩)
  · simp
  · constructor
    · exact fun h => ⟨c, lanes, run, _, rfl, s.merge.lacks_newWords lanes, (MergeQueue.lacksRoom_iff (s.merge.lacks_newWords lanes)).mp h⟩
    · rintro ⟨_, _, _, words, h, hl, hlt⟩
      cases h
      exact (MergeQueue.lacksRoom_iff hl).mpr hlt
  · simp

theorem State.urgent_iff : s.urgent = true ↔ s.merge.highWater ≤ s.merge.entries.length
    ∨ (∃ c lanes run words, s.host.action = some (.write c lanes run) ∧ s.merge.lacks lanes words
        ∧ 16 - s.merge.entries.length < words.length)
    ∨ s.mgmt.slot = some (.softReset .phase3) := by
  rw [← State.waitsForRoom_iff]
  simp [State.urgent, or_assoc]

/-! ### The drain choice (R53, R55, R56) -/

/-- What the drain choice looks for, in one condition (R53 to R55). -/
theorem State.candidate_eq (s : State) : s.candidate
    = fun e => e.state == .collecting && (s.urgent || e.flushMark || decide (s.merge.linger ≤ e.age)) := by
  unfold State.candidate
  cases s.urgent with
  | true => simp
  | false => simp [Entry.due]

theorem modifyFirst_first {α : Type} {p : α → Bool} {f : α → α} {a : α} {before after : List α} (hb : ∀ b ∈ before, p b = false)
    (ha : p a = true) : modifyFirst p f (before ++ a :: after) = before ++ f a :: after := by
  induction before with
  | nil => simp [modifyFirst, ha]
  | cons b before ih =>
    have hp := hb b (by simp)
    simp [modifyFirst, hp, ih fun c h => hb c (by simp [h])]

/-- The entry chosen leaves the collecting ones before and after it in their places (R55, R56). -/
theorem State.chooseDrain_first {older newer : List Entry} {e : Entry} (hd : s.merge.drain? = none)
    (hl : s.merge.entries = older ++ e :: newer) (ho : ∀ f ∈ older, s.candidate f = false) (he : s.candidate e = true) :
    s.chooseDrain = { s with merge := { s.merge with entries := older ++ e.chosen :: newer } } := by
  rw [State.chooseDrain_free hd, hl, modifyFirst_first ho he]

/-- The entry chosen is the drain entry (R55). -/
theorem State.chooseDrain_drain {e : Entry} (hd : s.merge.drain? = none) (he : s.merge.entries.find? s.candidate = some e) :
    s.chooseDrain.merge.drain? = some e.chosen := by
  obtain ⟨before, after, h1, _, _, h2⟩ := modifyFirst_split (f := Entry.chosen) he
  have hbefore : before.find? Entry.draining = none := by
    rw [MergeQueue.drain?, h1, List.find?_append, Option.or_eq_none_iff] at hd
    exact hd.1
  rw [State.chooseDrain_free hd]
  show (modifyFirst s.candidate Entry.chosen s.merge.entries).find? Entry.draining = _
  rw [h2, List.find?_append, hbefore, Option.none_or, List.find?_cons_of_pos e.chosen_draining]

/-! ### Ages (R53) -/

/-- Every entry older by d microseconds (R53). -/
def State.older (s : State) (d : Nat) : State := { s with merge := s.merge.ageBy d }

theorem State.older_entries (s : State) (d : Nat) :
    (s.older d).merge.entries = s.merge.entries.map fun f => { f with age := f.age + d } := rfl

/-- Ages leave the drain entry and the words in their places. -/
theorem State.older_drain (s : State) (d : Nat) :
    (s.older d).merge.drain? = s.merge.drain?.map fun f => { f with age := f.age + d } := by
  show List.find? Entry.draining (s.merge.entries.map _) = _
  rw [List.find?_map]
  rfl

theorem State.older_urgent (s : State) (d : Nat) : (s.older d).urgent = s.urgent := by
  have hwords : (s.older d).merge.entries.map Entry.word = s.merge.entries.map Entry.word := by
    rw [State.older_entries, List.map_map]
    rfl
  have hentry (a : Nat) : ((s.older d).merge.entry? a).isNone = (s.merge.entry? a).isNone :=
    Bool.eq_iff_iff.mpr (by rw [MergeQueue.entry?_isNone, MergeQueue.entry?_isNone, hwords])
  have hlength : (s.older d).merge.entries.length = s.merge.entries.length := by rw [State.older_entries, List.length_map]
  have hroom (lanes : List LaneWrite) : (s.older d).merge.lacksRoom lanes = s.merge.lacksRoom lanes := by
    simp only [MergeQueue.lacksRoom, MergeQueue.free, MergeQueue.newWords, hentry, hlength]
    exact decide_eq_decide.mpr Iff.rfl
  have hwaits : (s.older d).waitsForRoom = s.waitsForRoom := by
    unfold State.waitsForRoom
    show (match s.host.action with | some (.write _ lanes _) => _ | some (.read ..) | none => false) = _
    rcases s.host.action with _ | (⟨c, lanes, run⟩ | ⟨c, words, answered⟩)
    · rfl
    · exact hroom lanes
    · rfl
  show (decide (s.merge.highWater ≤ (s.older d).merge.entries.length) || (s.older d).waitsForRoom || _) = _
  rw [hlength, hwaits]
  rfl

/-- Settles O27. -/
theorem entryDueTakesDrainSlot : Obligations.EntryDueTakesDrainSlot := by
  refine ⟨fun s => State.urgent_iff, fun s => ?_, fun s w e he hc => ?_⟩
  · intro may
    have hmay : s.candidate = may := s.candidate_eq
    refine ⟨State.chooseDrain_taken, fun h => DrainChosen_iff.mpr (.inr (hmay ▸ h)), fun older e newer hd hl ho hm => ?_⟩
    exact State.chooseDrain_first hd hl (hmay ▸ ho) (hmay ▸ hm)
  · intro aged
    let d := s.merge.linger - e.age
    have hdue : exec (.entryDue w) s = .next (s.older d).chooseDrain := by
      show execEntryDue w s = _
      simp only [execEntryDue, he, hc, if_true]
      rfl
    have hmem : { e with age := e.age + d } ∈ (s.older d).merge.entries :=
      List.mem_map.mpr ⟨e, List.mem_of_find?_eq_some he, rfl⟩
    have hcand : (s.older d).candidate { e with age := e.age + d } = true := by
      have hage : s.merge.linger ≤ e.age + d := by omega
      rw [State.candidate_eq]
      show (e.state == .collecting && (_ || e.flushMark || decide (s.merge.linger ≤ e.age + d))) = true
      simp [hc, hage]
    have hlooked : ∃ f, (s.older d).merge.entries.find? (s.older d).candidate = some f :=
      Option.isSome_iff_exists.mp (List.find?_isSome.mpr ⟨_, hmem, hcand⟩)
    have hchosen (hd : s.merge.drain? = none) {f : Entry} (hf : aged.find? (s.older d).candidate = some f) :
        (s.older d).chooseDrain.merge.drain? = some f.chosen :=
      State.chooseDrain_drain (by rw [State.older_drain, hd]; rfl) hf
    have htaken (hd : s.merge.drain?.isSome = true) : (s.older d).chooseDrain = s.older d :=
      State.chooseDrain_taken (by rwa [State.older_drain, Option.isSome_map])
    obtain ⟨f, hf⟩ := hlooked
    refine ⟨_, hdue, State.chooseDrain_only, ?_, fun hd => ?_, fun hd hu => ⟨f, ?_, ?_, hchosen hd hf⟩,
      fun hd hu => ⟨f, ?_, ?_, hchosen hd hf⟩⟩
    · cases hd : s.merge.drain? with
      | none => rw [hchosen hd hf]; rfl
      | some g =>
        rw [htaken (by rw [hd]; rfl), State.older_drain, hd]
        rfl
    · rw [htaken hd]
      rfl
    · exact List.mem_of_find?_eq_some hf
    · rwa [State.candidate, State.older_urgent, if_pos hu] at hf
    · exact List.mem_of_find?_eq_some hf
    · rw [State.candidate, State.older_urgent, if_neg (by rw [hu]; decide)] at hf
      exact hf

end Sys2Proof.Machine
end


section
/-!
PROOF. A lane set taken into the merge queue (R48 to R51, R57, R63), and LANE_ARRIVAL.
-/

namespace Sys2Proof.Machine

variable {s t : State} {q : MergeQueue} {lanes : List LaneWrite}

/-! ### Reading through the queue (R63) -/

theorem Lanes.word_toNat (l : Lanes) : l.word.toNat = Nat.ofDigits 16 (l.toList.map fun n => (n.getD 0).toNat) := by
  have hfold : l.toList.foldr (fun (n : Option Nibble) rest => (n.getD 0).toNat + 16 * rest) 0
      = Nat.ofDigits 16 (l.toList.map fun n => (n.getD 0).toNat) := by
    rw [Nat.ofDigits_eq_foldr, List.foldr_map]
    rfl
  have hlt := Nat.ofDigits_lt_base_pow_length (b := 16) (l := l.toList.map fun n => (n.getD 0).toNat) (by decide) fun d hd => by
    obtain ⟨m, _, rfl⟩ := List.mem_map.mp hd
    exact BitVec.isLt _
  rw [List.length_map, Vector.length_toList] at hlt
  rw [Lanes.word, hfold]
  exact Nat.mod_eq_of_lt hlt

theorem laneOf_word (l : Lanes) (n : Fin 8) : laneOf l.word n = l[n].getD 0 := by
  refine BitVec.eq_of_toNat_eq ?_
  rw [laneOf_toNat, Lanes.word_toNat, ofDigits_digit (k := n.val)]
  · simp
  · intro d hd
    obtain ⟨m, _, rfl⟩ := List.mem_map.mp hd
    exact BitVec.isLt _
  · simp

/-- An overlaid read shows the valid lanes, and the rest as memory gave it (R63). -/
theorem Lanes.overlay_lane (l : Lanes) (w : Word) (n : Fin 8) : laneOf (l.overlay w) n = l[n].getD (laneOf w n) := by
  rw [Lanes.overlay, laneOf_word, Lanes.fill_get]
  rfl

theorem MergeQueue.overlay_none {a : Nat} (h : q.entry? a = none) (w : Word) : q.overlay a w = w := by
  rw [MergeQueue.overlay, h]

theorem MergeQueue.overlay_some {a : Nat} {e : Entry} (h : q.entry? a = some e) (w : Word) : q.overlay a w = e.lanes.overlay w := by
  rw [MergeQueue.overlay, h]

/-! ### One word, and the whole set (R50, R51) -/

theorem modifyFirst_find_other {α : Type} {p p' : α → Bool} {f : α → α} (l : List α) (hf : ∀ a, p (f a) = p a)
    (h : ∀ a, p' a = true → p a = false) : (modifyFirst p' f l).find? p = l.find? p := by
  induction l with
  | nil => rfl
  | cons a l ih =>
    unfold modifyFirst
    cases ha : p' a with
    | true => simp [hf, h a ha]
    | false => simp [List.find?_cons, ih]

theorem modifyFirst_find {α : Type} {p : α → Bool} {f : α → α} {l : List α} {a : α} (hf : ∀ a, p (f a) = p a)
    (h : l.find? p = some a) : (modifyFirst p f l).find? p = some (f a) := by
  obtain ⟨before, after, rfl, hb, ha, heq⟩ := modifyFirst_split (f := f) h
  have hbefore : before.find? p = none := List.find?_eq_none.mpr fun b hmem => by simp [hb b hmem]
  rw [heq, List.find?_append, hbefore, Option.none_or, List.find?_cons_of_pos (by rw [hf, ha])]

section TakeSet

variable (c : Creator) (mark granted : Bool)

/-- The entry of a word of the set after the set is taken: the one it had with the lanes merged, or a new one (R50, R51). -/
def MergeQueue.entryTaken (q : MergeQueue) (lanes : List LaneWrite) (a : Nat) : Entry :=
  match q.entry? a with
  | some e => e.mergeLanes (lanesFor lanes a) granted
  | none => Entry.create a (lanesFor lanes a) c mark

theorem MergeQueue.takeWord_entry (q : MergeQueue) (lanes : List LaneWrite) (a b : Nat) :
    (q.takeWord c mark granted lanes a).entry? b
      = if b = a then some (q.entryTaken c mark granted lanes a) else q.entry? b := by
  unfold MergeQueue.entryTaken
  rcases MergeQueue.takeWord_cases c mark granted lanes q a with ⟨e, he, ht⟩ | ⟨he, ht⟩
  · rw [ht, he]
    split
    · rename_i hb
      subst hb
      exact modifyFirst_find (fun _ => rfl) he
    · rename_i hb
      exact modifyFirst_find_other _ (fun _ => rfl) fun e h => by simp at h ⊢; omega
  · rw [ht, he]
    show (q.entries ++ [_]).find? _ = _
    rw [List.find?_append]
    split
    · rename_i hb
      subst hb
      rw [show q.entries.find? (fun e => e.word == b) = none from he]
      simp [Entry.create]
    · rename_i hb
      simp [Entry.create, Ne.symm hb]
      rfl

theorem MergeQueue.takeSet_entry (q : MergeQueue) (lanes : List LaneWrite) (b : Nat) :
    (q.takeSet c mark granted lanes).entry? b
      = if b ∈ beatWords lanes then some (q.entryTaken c mark granted lanes b) else q.entry? b := by
  have hnodup : (beatWords lanes).Nodup := (beatWords_spec lanes).1.imp fun h => Nat.ne_of_lt h
  unfold MergeQueue.takeSet
  generalize beatWords lanes = ws at *
  induction ws generalizing q with
  | nil => simp
  | cons a ws ih =>
    rw [List.nodup_cons] at hnodup
    obtain ⟨ha, hws⟩ := hnodup
    rw [List.foldl_cons, ih _ hws, MergeQueue.takeWord_entry]
    by_cases hb : b = a
    · subst hb
      simp [ha]
    · have : (q.takeWord c mark granted lanes a).entryTaken c mark granted lanes b = q.entryTaken c mark granted lanes b := by
        unfold MergeQueue.entryTaken
        rw [MergeQueue.takeWord_entry, if_neg hb]
      simp [hb, this]

end TakeSet

/-! ### The lanes of a set (R48) -/

/-- A lane that the set names holds its bits (R48). -/
theorem lanesFor_named (h : (lanes.map fun l => (l.word, l.lane)).Nodup) {a : Nat} {n : Fin 8} {l : LaneWrite} (hl : l ∈ lanes)
    (hw : l.word = a) (hn : l.lane = n) : (lanesFor lanes a)[n] = some l.bits := by
  rw [lanesFor_get]
  have hmem : l ∈ lanes.filter fun k => k.word == a && k.lane == n := List.mem_filter.mpr ⟨hl, by simp [hw, hn]⟩
  rw [List.getLast?_eq_some_getLast (List.ne_nil_of_mem hmem), Option.map_some]
  have hlast := List.getLast_mem (List.ne_nil_of_mem hmem)
  generalize (lanes.filter fun k => k.word == a && k.lane == n).getLast _ = k at hlast
  simp only [List.mem_filter, Bool.and_eq_true, beq_iff_eq] at hlast
  obtain ⟨hk, hkw, hkn⟩ := hlast
  rw [List.inj_on_of_nodup_map h hk hl (by rw [hkw, hkn, hw, hn])]

theorem lanesFor_unnamed {a : Nat} {n : Fin 8} (h : ∀ l ∈ lanes, l.word = a → l.lane ≠ n) : (lanesFor lanes a)[n] = none := by
  rw [lanesFor_get, List.filter_eq_nil_iff.mpr]
  · rfl
  · intro l hl
    simp only [Bool.and_eq_true, beq_iff_eq, not_and]
    exact h l hl

/-- What a word reads through its entry, where it has one (R63). -/
theorem MergeQueue.overlay_lane (q : MergeQueue) (a : Nat) (w : Word) (n : Fin 8) :
    laneOf (q.overlay a w) n = ((q.entry? a).bind fun e => e.lanes[n]).getD (laneOf w n) := by
  cases h : q.entry? a with
  | none => rw [MergeQueue.overlay_none h]; rfl
  | some e => rw [MergeQueue.overlay_some h, Lanes.overlay_lane]; rfl

/-- The lanes of a word's entry after the set is taken (R50, R51). -/
theorem MergeQueue.entryTaken_lane (c : Creator) (mark granted : Bool) (q : MergeQueue) (a : Nat) (n : Fin 8) :
    (q.entryTaken c mark granted lanes a).lanes[n] = ((lanesFor lanes a)[n]).or ((q.entry? a).bind fun e => e.lanes[n]) := by
  unfold MergeQueue.entryTaken
  cases q.entry? a with
  | none => simp [Entry.create]
  | some e => exact Lanes.merge_get ..

/-- Read through the queue, the set's lanes are there and the others as before (R51, R63). -/
theorem takeSet_overlay_lane (c : Creator) (mark granted : Bool) (q : MergeQueue) (lanes : List LaneWrite) (a : Nat) (w : Word)
    (n : Fin 8) : laneOf ((q.takeSet c mark granted lanes).overlay a w) n
      = (((lanesFor lanes a)[n]).or ((q.entry? a).bind fun e => e.lanes[n])).getD (laneOf w n) := by
  rw [MergeQueue.overlay_lane, MergeQueue.takeSet_entry]
  split
  · rw [Option.bind_some, MergeQueue.entryTaken_lane]
  · rename_i ha
    rw [lanesFor_unnamed fun l hl hw _ => ha ((beatWords_spec lanes).2 a |>.mpr ⟨l, hl, hw⟩), Option.none_or]

/-- An entry after the set is taken: it takes the lanes of its word, and a fetch not yet granted gives way to the write of a
complete word (R51, R57). -/
theorem entryJoined_spec (h : (lanes.map fun l => (l.word, l.lane)).Nodup) (granted : Bool) (e : Entry) :
    let f := if e.word ∈ beatWords lanes then e.mergeLanes (lanesFor lanes e.word) granted else e
    f = { e with lanes := f.lanes, state := f.state }
    ∧ (∀ l ∈ lanes, l.word = e.word → f.lanes[l.lane] = some l.bits)
    ∧ (∀ n : Fin 8, (∀ l ∈ lanes, l.word = e.word → l.lane ≠ n) → f.lanes[n] = e.lanes[n])
    ∧ f.state = if e.state = .fetching ∧ granted = false ∧ (∃ l ∈ lanes, l.word = e.word)
        ∧ (∀ n : Fin 8, f.lanes[n] ≠ none) then .pendingWrite else e.state := by
  intro f
  have hmem := (beatWords_spec lanes).2 e.word
  by_cases hw : e.word ∈ beatWords lanes
  · have hf : f = e.mergeLanes (lanesFor lanes e.word) granted := if_pos hw
    clear_value f
    subst hf
    refine ⟨rfl, fun l hl hlw => ?_, fun n hn => ?_, ?_⟩
    · rw [Entry.mergeLanes_lanes, Lanes.merge_get, lanesFor_named h hl hlw rfl]
      rfl
    · rw [Entry.mergeLanes_lanes, Lanes.merge_get, lanesFor_unnamed hn, Option.none_or]
    · have hcomplete : (e.lanes.merge (lanesFor lanes e.word)).complete = true
          ↔ ∀ n : Fin 8, (e.mergeLanes (lanesFor lanes e.word) granted).lanes[n] ≠ none := by
        rw [Lanes.complete_iff]
        exact forall_congr' fun n => Option.isSome_iff_ne_none
      refine if_congr ?_ rfl rfl
      rw [← hcomplete]
      simp only [Bool.and_eq_true, beq_iff_eq, Bool.not_eq_true', hmem.mp hw, true_and]
      tauto
  · have hf : f = e := if_neg hw
    clear_value f
    subst hf
    have hnone : ¬ ∃ l ∈ lanes, l.word = f.word := fun hl => hw (hmem.mpr hl)
    exact ⟨rfl, fun l hl hlw => absurd ⟨l, hl, hlw⟩ hnone, fun n _ => rfl, by simp [hnone]⟩

/-- Settles O28. -/
theorem takenLanesAreRead : Obligations.TakenLanesAreRead := by
  refine ⟨fun q c mark granted lanes h a n w => ⟨fun l hl hw hn => ?_, fun ho => ?_⟩, fun q a w => ⟨fun h => ?_, ?_⟩, ?_⟩
  · rw [takeSet_overlay_lane, lanesFor_named h hl hw hn]
    rfl
  · rw [takeSet_overlay_lane, lanesFor_unnamed fun l hl hw => (ho l hl).resolve_left (absurd hw), Option.none_or,
      MergeQueue.overlay_lane]
  · exact MergeQueue.overlay_none (List.find?_eq_none.mpr fun e he => by simpa using h e he) w
  · intro older e newer hq ho he n
    have hentry : q.entry? a = some e := by
      rw [MergeQueue.entry?, hq, List.find?_append, List.find?_eq_none.mpr fun f hf => by simpa using ho f hf, Option.none_or,
        List.find?_cons_of_pos (by simpa using he)]
    rw [MergeQueue.overlay_some hentry, Lanes.overlay_lane]
  · intro q c mark granted lanes h hq
    have hwords : ((q.newWords lanes).map fun a => Entry.create a (lanesFor lanes a) c mark).map Entry.word = q.newWords lanes := by
      rw [List.map_map]
      exact List.map_id _
    refine ⟨_, _, MergeQueue.takeSet_eq hq c mark granted lanes, by simp, fun i e he => ⟨_, ?_, entryJoined_spec h granted e⟩, ?_,
      ?_, fun f hf => ?_⟩
    · rw [List.getElem?_map, he]
      rfl
    · rw [hwords]
      exact (beatWords_spec lanes).1.filter _
    · rw [hwords]
      exact q.lacks_newWords lanes
    · obtain ⟨a, _, rfl⟩ := List.mem_map.mp hf
      exact ⟨rfl, fun l hl hw => lanesFor_named h hl hw rfl, fun n hn => lanesFor_unnamed hn⟩

/-! ### LANE_ARRIVAL (R49, R77, R146, R151) -/

/-- Over entries of distinct words, the entry of a word is the one of that word (R47). -/
theorem MergeQueue.entry?_eq_some (hq : (q.entries.map Entry.word).Nodup) {a : Nat} {e : Entry} :
    q.entry? a = some e ↔ e ∈ q.entries ∧ e.word = a := by
  refine ⟨fun h => ⟨List.mem_of_find?_eq_some h, by simpa using List.find?_some h⟩, fun ⟨he, hw⟩ => ?_⟩
  cases h : q.entry? a with
  | none => exact absurd (List.mem_map.mpr ⟨e, he, hw⟩) ((q.entry?_isNone a).mp (by rw [h]; rfl))
  | some f =>
    have hf : f.word = a := by simpa using List.find?_some h
    rw [List.inj_on_of_nodup_map hq (List.mem_of_find?_eq_some h) he (hf.trans hw.symm)]

/-- The two conditions under which a set is taken (R49). -/
theorem MergeQueue.canTake_iff {words : List Nat} (hq : (q.entries.map Entry.word).Nodup) (h : q.lacks lanes words) :
    q.canTake lanes = true ↔ (∀ e ∈ q.entries, e.state = .writing → ∀ l ∈ lanes, l.word ≠ e.word)
      ∧ words.length ≤ 16 - q.entries.length := by
  have hroom : q.lacksRoom lanes = false ↔ words.length ≤ 16 - q.entries.length := by
    rw [Bool.eq_false_iff, ne_eq, MergeQueue.lacksRoom_iff h, Nat.not_lt]
  have hwriting : q.writingWord lanes = false ↔ ∀ e ∈ q.entries, e.state = .writing → ∀ l ∈ lanes, l.word ≠ e.word := by
    have hentry {a : Nat} {e : Entry} : q.entry? a = some e ↔ e ∈ q.entries ∧ e.word = a := MergeQueue.entry?_eq_some hq
    simp only [MergeQueue.writingWord, List.any_eq_false, Option.any_eq_true, beq_iff_eq, not_exists, not_and, hentry,
      (beatWords_spec lanes).2]
    exact ⟨fun hw e he hs l hl hlw => hw e.word ⟨l, hl, hlw⟩ e ⟨he, rfl⟩ hs,
      fun hw a ⟨l, hl, hlw⟩ e ⟨he, hea⟩ hs => hw e he hs l hl (hlw.trans hea.symm)⟩
  simp only [MergeQueue.canTake, Bool.and_eq_true, Bool.not_eq_true', hwriting, hroom]

theorem State.marksNew_iff {c : Creator} : s.marksNew c = true ↔ ∃ n v, c = .window n ∧ s.window n = .draining v := by
  unfold State.marksNew
  cases c with
  | window n => cases hw : s.window n <;> simp [hw]
  | bypass => simp

theorem MemoryPort.serves_iff {p : MemoryPort} {r : Requester} :
    p.serves r = true ↔ ∃ a, p.access = some a ∧ a.requester = r ∧ a.abandoned = false := by
  unfold MemoryPort.serves
  cases p.access <;> simp

theorem exec_laneArrival {c : Creator} {run : Option (Carried × Rect)} (h : s.host.action = some (.write c lanes run)) :
    exec .laneArrival s
      = .next (if s.merge.canTake lanes = true then (s.beatTaken c lanes run).goesOn (s.beatEvents run) else s) := by
  show execLaneArrival s = _
  simp only [execLaneArrival, h, State.arrive_eq_beatTaken, State.runEvents_eq_beatEvents, State.settle_eq_goesOn]

@[simp] theorem State.takeIfIdle_mgmt (s : State) : s.takeIfIdle.mgmt = s.mgmt := by rw [State.takeIfIdle_only s]

/-- A beat taken leaves the management port alone. -/
theorem State.beatTaken_mgmt (s : State) (c : Creator) (lanes : List LaneWrite) (run : Option (Carried × Rect)) :
    (s.beatTaken c lanes run).mgmt = s.mgmt := by
  unfold State.beatTaken
  rw [State.finishBeat_mgmt]
  cases s.beatDamage run with
  | none => rfl
  | some p => exact State.takeIfIdle_mgmt _

theorem State.goesOn_free (h : s.mgmt.slot = none) (es : List Event) : s.goesOn es = (s.postTogether es).chooseDrain := by
  rw [← State.settle_eq_goesOn, State.settle_free h]

/-- Settles O29. -/
theorem laneArrivalTakesSet : Obligations.LaneArrivalTakesSet := by
  refine ⟨fun q lanes words hq h => MergeQueue.canTake_iff hq h, fun s c => ⟨State.marksNew_iff, MemoryPort.serves_iff⟩,
    fun s c lanes run h => ?_⟩
  intro taken damage damaged collapse done
  have hdamage : s.beatDamage run = damage := by
    unfold State.beatDamage
    rcases run with _ | ⟨d, r⟩ <;> rfl
  have hdone : s.beatTaken c lanes run = done := by
    simp only [State.beatTaken, hdamage, done, damaged]
    cases damage <;> rfl
  have hcollapse : s.beatEvents run = collapse := by
    simp only [State.beatEvents, hdamage, collapse]
    rcases damage with _ | ⟨w, q⟩
    · rfl
    · cases hc : (s.damage.insert w q).2 <;> simp [hc]
  have hfew : collapse = [] ∨ ∃ e, collapse = [e] := by
    simp only [collapse]
    rcases damage with _ | ⟨w, q⟩
    · exact .inl rfl
    · cases hc : (s.damage.insert w q).2 <;> simp [hc]
  have hslot : done.mgmt = s.mgmt := hdone ▸ s.beatTaken_mgmt c lanes run
  have harrival := exec_laneArrival h
  rw [hdone, hcollapse] at harrival
  refine ⟨fun hc => ?_, fun hc => ?_, fun hc hs => ?_⟩
  · rw [harrival, hc]
    rfl
  · rw [harrival, if_pos hc]
  · rw [harrival, if_pos hc, State.goesOn_free (hslot ▸ hs)]
    rcases hfew with hf | ⟨e, hf⟩ <;> rw [hf] <;> rfl

end Sys2Proof.Machine
end


section
/-!
PROOF. The damage list's commands and insertions (chapter 4): what each step does, and that no damage is lost.
-/

namespace Sys2Proof.Machine

variable {s t : State} {l : DamageList} {w : Fin 8} {q : Rect}

/-! ### Reading and changing the list (R84, R85, R92) -/

theorem Record.bytes_eq (r : Record) (tail : Bool) : r.bytes tail =
    [byteOf r.window.val,
      byteOf ((if r.state = .streaming then 1 else 0) + (if r.mark = true then 2 else 0) + if tail = true then 4 else 0),
      byteOf r.rect.x0, byteOf (r.rect.x0 / 256 % 16 + 16 * (r.rect.y0 % 16)), byteOf (r.rect.y0 / 16),
      byteOf r.rect.x1, byteOf (r.rect.x1 / 256 % 16 + 16 * (r.rect.y1 % 16)), byteOf (r.rect.y1 / 16)] := by
  have hflags : flagBits [r.state == .streaming, r.mark, tail]
      = (if r.state = .streaming then 1 else 0) + (if r.mark = true then 2 else 0) + if tail = true then 4 else 0 := by
    cases r.state <;> cases r.mark <;> cases tail <;> rfl
  rw [Record.bytes, hflags, rectOf, pairOf, pairOf, Nat.mul_comm _ 16, Nat.mul_comm _ 16]
  rfl

theorem newestOf_ne_none {rs : List Record} (h : rs ≠ []) : newestOf rs ≠ none := by
  cases rs with
  | nil => exact absurd rfl h
  | cons r rs =>
    simp only [newestOf]
    split
    · simp
    · split <;> simp

/-- The tail of a window is its PENDING record newest in the touch order (R76). -/
theorem DamageList.isTail_iff (hl : (l.records.map Record.touch).Nodup) {r : Record} (hr : r ∈ l.records) :
    l.isTail r = true ↔ r.state = .pending
      ∧ ∀ p ∈ l.records, p.state = .pending → p.window = r.window → p.touch ≤ r.touch := by
  rw [DamageList.isTail, beq_iff_eq]
  constructor
  · intro h
    obtain ⟨hmem, hmax⟩ := newestOf_some h
    refine ⟨(Record.pendingOf_iff.mp (List.mem_filter.mp hmem).2).1, fun p hp hs hw => ?_⟩
    exact hmax p (List.mem_filter.mpr ⟨hp, Record.pendingOf_iff.mpr ⟨hs, hw⟩⟩)
  · rintro ⟨hs, hmax⟩
    have hmem : r ∈ l.records.filter (Record.pendingOf r.window) :=
      List.mem_filter.mpr ⟨hr, Record.pendingOf_iff.mpr ⟨hs, rfl⟩⟩
    cases hn : l.tail? r.window with
    | none => exact absurd hn (newestOf_ne_none (List.ne_nil_of_mem hmem))
    | some t =>
      obtain ⟨ht, htmax⟩ := newestOf_some hn
      obtain ⟨htl, htp⟩ := List.mem_filter.mp ht
      obtain ⟨hts, htw⟩ := Record.pendingOf_iff.mp htp
      rw [List.inj_on_of_nodup_map hl htl hr (Nat.le_antisymm (hmax t htl hts htw) (htmax r hmem))]

/-- Settles O30. -/
theorem damageCommands : Obligations.DamageCommands := by
  refine ⟨Record.bytes_eq, fun n => rfl, fun l hl r hr => ⟨DamageList.isTail_iff hl hr, ?_⟩,
    fun s => ⟨fun h => State.takeIfIdle_same (.inl h), fun h => ⟨fun hp => State.takeIfIdle_same (.inr hp),
      fun r hp => State.takeIfIdle_taken h hp⟩⟩, fun s h => exec_damageRead h, fun s b h => ⟨fun hb => ?_, fun hb hr => ?_,
    fun n hb hr => ?_⟩, fun s b r n v h hr hb hw htr hx0 hx1 hy0 hy1 => ?_⟩
  · rw [DamageList.isTail, beq_iff_eq]
  · rw [exec_damageClear b h, windowNumber_eq_none.mpr hb]
  · rw [exec_damageClear b h, (windowNumber_eq_some (n := ⟨b.toNat, hb⟩)).mpr rfl]
    exact congrArg Host.Outcome.next (if_pos hr)
  · rw [exec_damageClear b h, windowNumber_eq_some.mpr hb]
    have hother : (fun r : Record => !r.pendingOf n) = fun r => r.state != .pending || r.window != n := by
      funext r
      rw [Record.pendingOf, Bool.not_and]
      rfl
    simp only [hr, Bool.false_eq_true, if_false, DamageList.remove, hother]
  · intro rect
    have ht : s.activeTarget b = .ok (n, v) := State.activeTarget_ok.mpr ⟨hb, hr, hw⟩
    have hwithin : (unpackRect r).within v.width v.height = true := Rect.within_iff.mpr ⟨hx0, hx1, hy0, hy1⟩
    have hadd : exec (.damageAdd b r) s = .next ((s.insertDamage n rect).takeIfIdle.reply [0x00]) := by
      rw [exec_damageAdd b r h, ht]
      exact congrArg Host.Outcome.next ((if_neg (by simp [htr])).trans (if_neg (by simp [hwithin])))
    refine ⟨fun hs => ?_, fun _ => hadd⟩
    have heq := s.insertDamage_eq n rect
    rw [hadd, State.takeIfIdle_same (.inl (by rw [heq]; exact hs))]
    refine congrArg (fun u => Host.Outcome.next (State.reply u [0x00])) (heq.trans ?_)
    cases (s.damage.insert n rect).2 <;> rfl

/-! ### Bounding boxes (R79, R81) -/

theorem Rect.contains_iff {r q : Rect} :
    r.contains q = true ↔ (r.x0 ≤ q.x0 ∧ q.x1 ≤ r.x1) ∧ r.y0 ≤ q.y0 ∧ q.y1 ≤ r.y1 := by
  simp [Rect.contains, and_assoc]

theorem Rect.adjacent_iff {r q : Rect} : r.adjacent q = true
    ↔ (q.x0 ≤ r.x1 + 1 ∧ r.x0 ≤ q.x1 + 1) ∧ q.y0 ≤ r.y1 + 1 ∧ r.y0 ≤ q.y1 + 1 := by
  simp [Rect.adjacent, and_assoc]

theorem Rect.join_contains (r q : Rect) : (r.join q).contains r = true ∧ (r.join q).contains q = true := by
  simp [Rect.contains_iff, Rect.join]

theorem Rect.contains_trans {r q p : Rect} (h : r.contains q = true) (h' : q.contains p = true) : r.contains p = true := by
  rw [Rect.contains_iff] at *
  omega

/-- The bounding box of a rectangle and those of records holds each and has its sides from them (R81). -/
theorem boundingBox_bounds (q : Rect) (rs : List Record) : (boundingBox q rs).bounds (q :: rs.map Record.rect) := by
  induction rs generalizing q with
  | nil => exact ⟨by simp [Rect.contains_iff, boundingBox], ⟨q, by simp, rfl⟩, ⟨q, by simp, rfl⟩, ⟨q, by simp, rfl⟩, ⟨q, by simp, rfl⟩⟩
  | cons r rs ih =>
    obtain ⟨hall, hx0, hy0, hx1, hy1⟩ := ih (q.join r.rect)
    have hbox : boundingBox q (r :: rs) = boundingBox (q.join r.rect) rs := rfl
    have side {f : Rect → Nat} {b : Nat} (hf : f (q.join r.rect) = f q ∨ f (q.join r.rect) = f r.rect)
        (h : ∃ p ∈ q.join r.rect :: rs.map Record.rect, f p = b) : ∃ p ∈ q :: r.rect :: rs.map Record.rect, f p = b := by
      obtain ⟨p, hp, hb⟩ := h
      rcases List.mem_cons.mp hp with rfl | hp
      · rcases hf with hf | hf
        · exact ⟨q, by simp, hf.symm.trans hb⟩
        · exact ⟨r.rect, by simp, hf.symm.trans hb⟩
      · exact ⟨p, by simp [hp], hb⟩
    obtain ⟨hq, hr⟩ := q.join_contains r.rect
    rw [hbox, List.map_cons]
    refine ⟨fun p hp => ?_, side (min_choice ..) hx0, side (min_choice ..) hy0, side (max_choice ..) hx1, side (max_choice ..) hy1⟩
    have hjoin := hall _ List.mem_cons_self
    rcases List.mem_cons.mp hp with rfl | hp
    · exact Rect.contains_trans hjoin hq
    · rcases List.mem_cons.mp hp with rfl | hp
      · exact Rect.contains_trans hjoin hr
      · exact hall p (List.mem_cons_of_mem _ hp)

theorem boundingBoxOf_bounds {rs : List Record} (h : rs ≠ []) : (boundingBoxOf rs).bounds (rs.map Record.rect) := by
  cases rs with
  | nil => exact absurd rfl h
  | cons r rs => exact boundingBox_bounds r.rect rs

/-! ### The steps of an insertion (R78 to R82) -/

theorem DamageList.insert_contained (h : (l.pendingOf w).any (fun r => r.rect.contains q) = true) : l.insert w q = (l, none) :=
  if_pos h

section NotContained

variable (hc : (l.pendingOf w).any (fun r => r.rect.contains q) = false)
include hc

theorem DamageList.insert_grows {t : Record} (ht : l.tail? w = some t) (ha : t.rect.adjacent q = true) :
    l.insert w q = (l.grow t q, none) := by
  have hf : (l.tail? w).filter (fun t => t.rect.adjacent q) = some t := by
    rw [ht]
    simp [Option.filter, ha]
  simp [DamageList.insert, hc, hf]

variable (ha : ∀ t, l.tail? w = some t → t.rect.adjacent q = false)
include ha

omit hc in
theorem DamageList.tail_not_adjacent : (l.tail? w).filter (fun t => t.rect.adjacent q) = none := by
  rw [Option.filter_eq_none_iff]
  exact fun t ht => by simp [ha t ht]

theorem DamageList.insert_appends (hl : l.records.length < 24) : l.insert w q = (l.append w q, none) := by
  simp [DamageList.insert, hc, DamageList.tail_not_adjacent ha, Config.damageCapacity, hl]

theorem DamageList.insert_collapses (hl : 24 ≤ l.records.length) (hm : 2 ≤ (l.pendingOf w).length) :
    l.insert w q = (l.collapse w (boundingBox q (l.pendingOf w)), some w) := by
  simp [DamageList.insert, hc, DamageList.tail_not_adjacent ha, Config.damageCapacity, Nat.not_lt.mpr hl, hm]

theorem DamageList.insert_busiest (hl : 24 ≤ l.records.length) (hm : (l.pendingOf w).length < 2) : l.insert w q
    = ((l.collapse l.busiest (boundingBoxOf (l.pendingOf l.busiest))).append w q, some l.busiest) := by
  simp [DamageList.insert, hc, DamageList.tail_not_adjacent ha, Config.damageCapacity, Nat.not_lt.mpr hl, Nat.not_le.mpr hm]

end NotContained

/-- A collapse stands at the place of the earliest PENDING record of the window (R81, R82). -/
theorem DamageList.collapse_first {v : Fin 8} {r : Record} {before after : List Record} (hr : l.records = before ++ r :: after)
    (hb : ∀ p ∈ before, p.pendingOf v = false) (hp : r.pendingOf v = true) (box : Rect) : l.collapse v box
      = ⟨before ++ ⟨v, box, .pending, (l.pendingOf v).any Record.mark, l.nextTouch⟩ :: after.filter (fun p => !p.pendingOf v),
        l.nextTouch + 1⟩ := by
  rw [DamageList.collapse, hr, replaceAll_first hb hp]

/-- Among windows of equally many PENDING records the lowest is the busiest (R82). -/
theorem foldl_busiest_lowest (l : DamageList) (ws : List (Fin 8)) (b : Fin 8) (hb : ∀ w ∈ ws, b ≤ w) (hs : ws.Pairwise (· < ·)) :
    let m := ws.foldl (fun b w => if (l.pendingOf b).length < (l.pendingOf w).length then w else b) b
    ((l.pendingOf b).length = (l.pendingOf m).length → m ≤ b)
      ∧ ∀ w ∈ ws, (l.pendingOf w).length = (l.pendingOf m).length → m ≤ w := by
  induction ws generalizing b with
  | nil => exact ⟨fun _ => le_rfl, nofun⟩
  | cons w ws ih =>
    rw [List.pairwise_cons] at hs
    obtain ⟨hw, hs⟩ := hs
    simp only [List.foldl_cons]
    split
    · rename_i hlt
      obtain ⟨h1, h2⟩ := ih w (fun u hu => (hw u hu).le) hs
      obtain ⟨hle, _⟩ := foldl_busiest l ws w
      exact ⟨fun heq => absurd heq (by omega), List.forall_mem_cons.mpr ⟨h1, h2⟩⟩
    · rename_i hge
      obtain ⟨h1, h2⟩ := ih b (fun u hu => hb u (List.mem_cons_of_mem _ hu)) hs
      obtain ⟨hle, _⟩ := foldl_busiest l ws b
      exact ⟨h1, List.forall_mem_cons.mpr ⟨fun heq => (h1 (by omega)).trans (hb w List.mem_cons_self), h2⟩⟩

theorem mem_allWindows (u : Fin 8) : u ∈ allWindows := by
  revert u
  decide

theorem DamageList.busiest_lowest (l : DamageList) (u : Fin 8)
    (h : (l.pendingOf u).length = (l.pendingOf l.busiest).length) : l.busiest ≤ u :=
  (foldl_busiest_lowest l allWindows 0 (fun w _ => Fin.zero_le w) (by decide)).2 u (mem_allWindows u) h

/-- Settles O31. -/
theorem insertionSteps : Obligations.InsertionSteps := by
  refine ⟨fun r q => ⟨Rect.contains_iff, Rect.adjacent_iff, rfl⟩, fun l w q => ?_⟩
  intro mine merged
  refine ⟨DamageList.insert_contained, fun hc t ht ha => ?_, fun hc ha hl => ?_, fun hc ha hl hm => ?_, fun hc ha hl hm => ?_⟩
  · obtain ⟨before, after, h1, h2⟩ := DamageList.grow_split (DamageList.tail?_some ht).1 q
    refine ⟨before.length, by simp [h1], ?_⟩
    rw [DamageList.insert_grows hc ht ha, h2, h1]
    simp
  · rw [DamageList.insert_appends hc ha hl]
    rfl
  · rw [DamageList.insert_collapses hc ha hl hm]
    refine ⟨rfl, ?_, fun before r after hr hb hp => ⟨_, boundingBox_bounds q mine, ?_⟩⟩
    · have hm : 2 ≤ (l.pendingOf w).length := hm
      have := DamageList.collapse_length (l := l) (w := w) (b := boundingBox q (l.pendingOf w)) (by omega)
      show (l.collapse w (boundingBox q (l.pendingOf w))).records.length = l.records.length - (l.pendingOf w).length + 1
      have : (l.pendingOf w).length ≤ l.records.length := List.length_filter_le ..
      omega
    · exact DamageList.collapse_first hr hb hp _
  · rw [DamageList.insert_busiest hc ha hl hm]
    refine ⟨l.busiest, rfl, fun u => ⟨l.le_busiest u, l.busiest_lowest u⟩, fun before r after hr hb hp => ?_⟩
    have hne : l.pendingOf l.busiest ≠ [] := List.ne_nil_of_mem (List.mem_filter.mpr ⟨by simp [hr], hp⟩)
    refine ⟨_, boundingBoxOf_bounds hne, ?_⟩
    rw [DamageList.collapse_first hr hb hp]
    rfl

/-! ### No damage is lost (R74, R81 to R83) -/

/-- A pixel of a window is covered by a record of it. -/
def DamageList.covers (l : DamageList) (u : Fin 8) (x y : Nat) : Prop :=
  ∃ r ∈ l.records, r.window = u ∧ r.rect.holds x y = true

theorem Rect.holds_of_contains {r p : Rect} {x y : Nat} (h : r.contains p = true) (hp : p.holds x y = true) :
    r.holds x y = true := by
  rw [Rect.contains_iff] at h
  simp only [Rect.holds, Bool.and_eq_true, decide_eq_true_eq] at *
  omega

/-- A record taken over by one of its window that contains it loses no pixel. -/
theorem DamageList.covers_of_each {l l' : DamageList} {u : Fin 8} {x y : Nat}
    (h : ∀ r ∈ l.records, ∃ r' ∈ l'.records, r'.window = r.window ∧ r'.rect.contains r.rect = true) (hc : l.covers u x y) :
    l'.covers u x y := by
  obtain ⟨r, hr, hw, hp⟩ := hc
  obtain ⟨r', hr', hw', hcon⟩ := h r hr
  exact ⟨r', hr', hw'.trans hw, Rect.holds_of_contains hcon hp⟩

theorem Rect.contains_self (r : Rect) : r.contains r = true := by simp [Rect.contains_iff]

theorem DamageList.append_covers {u : Fin 8} {x y : Nat} (h : l.covers u x y ∨ (u = w ∧ q.holds x y = true)) :
    (l.append w q).covers u x y := by
  rcases h with ⟨r, hr, hw, hp⟩ | ⟨rfl, hp⟩
  · exact ⟨r, List.mem_append_left _ hr, hw, hp⟩
  · exact ⟨_, List.mem_append_right _ List.mem_cons_self, rfl, hp⟩

theorem DamageList.grow_covers {t : Record} (ht : l.tail? w = some t) {u : Fin 8} {x y : Nat}
    (h : l.covers u x y ∨ (u = w ∧ q.holds x y = true)) : (l.grow t q).covers u x y := by
  obtain ⟨hmem, hp⟩ := DamageList.tail?_some ht
  obtain ⟨before, after, h1, h2⟩ := DamageList.grow_split hmem q
  obtain ⟨hjt, hjq⟩ := t.rect.join_contains q
  have hgrown : { t with rect := t.rect.join q, touch := l.nextTouch } ∈ (l.grow t q).records := by simp [h2]
  rcases h with h | ⟨rfl, hq⟩
  · refine DamageList.covers_of_each (fun r hr => ?_) h
    by_cases hrt : r = t
    · exact ⟨_, hgrown, by rw [hrt], by rw [hrt]; exact hjt⟩
    · refine ⟨r, ?_, rfl, r.rect.contains_self⟩
      rw [h1, List.mem_append, List.mem_cons] at hr
      rw [h2, List.mem_append, List.mem_cons]
      exact hr.imp_right fun h => h.imp_left (absurd · hrt)
  · exact ⟨_, hgrown, (Record.pendingOf_iff.mp hp).2, Rect.holds_of_contains hjq hq⟩

/-- The record that a collapse puts in the place of a window's PENDING records (R81, R82). -/
def DamageList.collapsed (l : DamageList) (v : Fin 8) (box : Rect) : Record :=
  ⟨v, box, .pending, (l.pendingOf v).any Record.mark, l.nextTouch⟩

theorem DamageList.collapse_records (l : DamageList) (v : Fin 8) (box : Rect) :
    (l.collapse v box).records = replaceAll (Record.pendingOf v) (l.collapsed v box) l.records := rfl

/-- A collapse to a box that holds the window's PENDING records keeps what they covered (R81, R82). -/
theorem DamageList.collapse_covers {v : Fin 8} {box : Rect} (hbox : ∀ r ∈ l.pendingOf v, box.contains r.rect = true) {u : Fin 8}
    {x y : Nat} (h : l.covers u x y) : (l.collapse v box).covers u x y := by
  refine DamageList.covers_of_each (fun r hr => ?_) h
  rcases replaceAll_split (Record.pendingOf v) (l.collapsed v box) l.records with
    ⟨_, heq⟩ | ⟨before, a, after, h1, hb, ha, heq⟩
  · exact ⟨r, by rwa [DamageList.collapse_records, heq], rfl, r.rect.contains_self⟩
  · cases hp : r.pendingOf v with
    | true =>
      refine ⟨l.collapsed v box, ?_, (Record.pendingOf_iff.mp hp).2.symm, hbox r (List.mem_filter.mpr ⟨hr, hp⟩)⟩
      rw [DamageList.collapse_records, heq]
      exact List.mem_append_right _ List.mem_cons_self
    | false =>
      refine ⟨r, ?_, rfl, r.rect.contains_self⟩
      rw [h1, List.mem_append, List.mem_cons] at hr
      rw [DamageList.collapse_records, heq, List.mem_append, List.mem_cons, List.mem_filter]
      rcases hr with hr | rfl | hr
      · exact .inl hr
      · exact absurd (ha.symm.trans hp) (by decide)
      · exact .inr (.inr ⟨hr, by simp [hp]⟩)

/-- The collapse of the window itself covers the rectangle as well (R81). -/
theorem DamageList.collapse_covers_inserted {box : Rect} (hm : l.pendingOf w ≠ []) (hbox : box.contains q = true) {x y : Nat}
    (hq : q.holds x y = true) : (l.collapse w box).covers w x y := by
  obtain ⟨a, ha⟩ := List.exists_mem_of_ne_nil _ hm
  obtain ⟨hmem, hp⟩ := List.mem_filter.mp ha
  rcases replaceAll_split (Record.pendingOf w) (l.collapsed w box) l.records with
    ⟨hn, _⟩ | ⟨before, r, after, _, _, _, heq⟩
  · exact absurd (hp.symm.trans (hn a hmem)) (by decide)
  · refine ⟨l.collapsed w box, ?_, rfl, Rect.holds_of_contains hbox hq⟩
    rw [DamageList.collapse_records, heq]
    exact List.mem_append_right _ List.mem_cons_self

theorem DamageList.insert_covers {u : Fin 8} {x y : Nat} (h : l.covers u x y ∨ (u = w ∧ q.holds x y = true)) :
    (l.insert w q).1.covers u x y := by
  cases hc : (l.pendingOf w).any (fun r => r.rect.contains q) with
  | true =>
    rw [DamageList.insert_contained hc]
    rcases h with h | ⟨rfl, hq⟩
    · exact h
    · obtain ⟨r, hr, hcon⟩ := List.any_eq_true.mp hc
      obtain ⟨hmem, hp⟩ := List.mem_filter.mp hr
      exact ⟨r, hmem, (Record.pendingOf_iff.mp hp).2, Rect.holds_of_contains hcon hq⟩
  | false =>
    by_cases ha : ∃ t, l.tail? w = some t ∧ t.rect.adjacent q = true
    · obtain ⟨t, ht, ha⟩ := ha
      rw [DamageList.insert_grows hc ht ha]
      exact DamageList.grow_covers ht h
    · have ha : ∀ t, l.tail? w = some t → t.rect.adjacent q = false := by simpa using ha
      by_cases hl : l.records.length < 24
      · rw [DamageList.insert_appends hc ha hl]
        exact DamageList.append_covers h
      · by_cases hm : 2 ≤ (l.pendingOf w).length
        · rw [DamageList.insert_collapses hc ha (Nat.not_lt.mp hl) hm]
          obtain ⟨hall, _⟩ := boundingBox_bounds q (l.pendingOf w)
          rcases h with h | ⟨rfl, hq⟩
          · exact DamageList.collapse_covers (fun r hr => hall _ (List.mem_cons_of_mem _ (List.mem_map_of_mem hr))) h
          · exact DamageList.collapse_covers_inserted (List.ne_nil_of_length_pos (by omega)) (hall _ List.mem_cons_self) hq
        · rw [DamageList.insert_busiest hc ha (Nat.not_lt.mp hl) (Nat.not_le.mp hm)]
          refine DamageList.append_covers (h.imp_left fun h => DamageList.collapse_covers (fun r hr => ?_) h)
          obtain ⟨hall, _⟩ := boundingBoxOf_bounds (List.ne_nil_of_mem hr)
          exact hall _ (List.mem_map_of_mem hr)

/-- Settles O32. -/
theorem insertionLosesNoDamage : Obligations.InsertionLosesNoDamage :=
  fun l w q => ⟨fun _ _ _ h => DamageList.insert_covers h, l.insert_streaming w q⟩

end Sys2Proof.Machine
end


section
/-!
PROOF. The streamer and the panel link (chapter 5): STREAM_MODE, STREAM_CONFIG, STREAM_RESUME, the messages that go out and the
panel's answers.
-/

namespace Sys2Proof.Machine

variable {s t : State}

/-! ### STREAM_MODE (R116 to R118) -/

theorem StreamMode.ofCode_cases (c : Nat) : 2 < c ∧ StreamMode.ofCode c = none ∨ c ≤ 2 ∧ ∃ m, StreamMode.ofCode c = some m := by
  match c with
  | 0 => exact .inr ⟨by omega, .off, rfl⟩
  | 1 => exact .inr ⟨by omega, .free, rfl⟩
  | 2 => exact .inr ⟨by omega, .gated, rfl⟩
  | n + 3 => exact .inl ⟨by omega, rfl⟩

theorem State.abortToOff_rests (h : s.streamer.region = none) :
    s.abortToOff = { s with streamer := { s.streamer with state := .off, mode := .off, passOpen := false } } := by
  simp [State.abortToOff, h]

theorem State.abortToOff_aborts {r : Region} (h : s.streamer.region = some r) : s.abortToOff = { s.abortRegion with
    damage := { s.damage with records := s.damage.records.map fun q => { q with state := .pending } }
    streamer := { s.streamer with
      state := .off, mode := .off, passOpen := false, region := none, answerTimer := none } } := by
  rw [State.abortToOff, if_pos (by rw [h]; rfl)]
  rfl

/-- Settles O33. -/
theorem streamModeChanges : Obligations.StreamModeChanges := by
  intro s m h
  have accepted {m : Byte} {mode : StreamMode} (hm : StreamMode.ofCode m.toNat = some mode) (hr : s.resetOrLoad = false) :
      exec (.streamMode m) s = .next ((s.setMode mode).reply [0x00]) := by
    rw [exec_streamMode m h, hm]
    exact congrArg Host.Outcome.next (if_neg (by rw [hr]; decide))
  refine ⟨fun hm => ?_, fun hm hr => ?_, fun hr => ⟨fun hreg => ?_, fun r hreg => ?_, fun h1 h2 => ?_, fun h1 => ⟨fun hp => ?_,
    fun r hp => ?_⟩, fun h1 => ?_, fun h1 h2 => ?_⟩⟩
  · have hnone : StreamMode.ofCode m.toNat = none := ((StreamMode.ofCode_cases m.toNat).resolve_right (by omega)).2
    rw [exec_streamMode m h, hnone]
  · obtain ⟨_, mode, hmode⟩ := (StreamMode.ofCode_cases m.toNat).resolve_left (by omega)
    rw [exec_streamMode m h, hmode]
    exact congrArg Host.Outcome.next (if_pos hr)
  · rw [accepted (mode := .off) rfl hr, State.setMode, State.abortToOff_rests hreg]
  · rw [accepted (mode := .off) rfl hr, State.setMode, State.abortToOff_aborts hreg]
  · rw [accepted (mode := .free) rfl hr, State.setMode_free_stays (by tauto)]
  · rw [accepted (mode := .free) rfl hr, State.setMode_free_takes h1]
    exact congrArg (fun u => Host.Outcome.next (State.reply u [0x00])) (State.takeIfIdle_same (.inr hp))
  · rw [accepted (mode := .free) rfl hr, State.setMode_free_takes h1]
    exact congrArg (fun u => Host.Outcome.next (State.reply u [0x00])) (State.takeIfIdle_taken rfl hp)
  · rw [accepted (mode := .gated) rfl hr, State.setMode_gated_waits h1]
  · rw [accepted (mode := .gated) rfl hr, State.setMode_gated_stays (by tauto)]

/-! ### STREAM_CONFIG and STREAM_RESUME (R115, R119) -/

theorem PanelFormat.ofCode_cases (c : Nat) : 1 < c ∧ PanelFormat.ofCode c = none
    ∨ c ≤ 1 ∧ PanelFormat.ofCode c = some (if c = 0 then .p16 else .p24) := by
  match c with
  | 0 => exact .inr ⟨by omega, rfl⟩
  | 1 => exact .inr ⟨by omega, rfl⟩
  | n + 2 => exact .inl ⟨by omega, rfl⟩

/-- Settles O34. -/
theorem streamConfigAndResume : Obligations.StreamConfigAndResume := by
  intro s f l r h
  refine ⟨fun hbad => ?_, fun hf hl hr => ?_, fun hr => ?_, fun hr hs => ?_, fun hr hs => ?_⟩
  · rw [exec_streamConfig f l r h]
    rcases PanelFormat.ofCode_cases f.toNat with ⟨_, hf⟩ | ⟨hle, hf⟩
    · rw [hf]
    · rw [hf]
      exact congrArg Host.Outcome.next (if_pos (by omega))
  · have hf := ((PanelFormat.ofCode_cases f.toNat).resolve_left (by omega)).2
    have hformat : (if f.toNat = 0 then PanelFormat.p16 else .p24) = if f = 0 then .p16 else .p24 :=
      if_congr ⟨fun h0 => BitVec.eq_of_toNat_eq h0, fun h0 => by rw [h0]; rfl⟩ rfl rfl
    rw [exec_streamConfig f l r h, hf, hformat]
    have hok : ¬ (l.toNat = 0 ∨ 3 < r.toNat) := by omega
    simp only [hok, if_false]
    refine ⟨fun hb => ?_, fun hb hs => ?_, fun hb hs => ?_⟩
    · rw [if_pos hb]
    · rw [if_neg (by rw [hb]; decide), if_pos hs]
    · rw [if_neg (by rw [hb]; decide), if_neg (not_not.mpr hs)]
  · rw [exec_streamResume h, if_pos hr]
  · rw [exec_streamResume h, if_neg (by rw [hr]; decide), if_pos hs]
  · have hresume : exec .streamResume s = .next (s.resume.reply [0x00]) := by
      rw [exec_streamResume h, if_neg (by rw [hr]; decide), if_neg (not_not.mpr hs)]
    refine ⟨fun hm => ?_, fun hm hp => ?_, fun q hm hp => ?_⟩
    · rw [hresume, State.resume, hm]
    · rw [hresume, State.resume, hm]
      exact congrArg (fun u => Host.Outcome.next (State.reply u [0x00])) (State.takeIfIdle_same (.inr hp))
    · rw [hresume, State.resume, hm]
      exact congrArg (fun u => Host.Outcome.next (State.reply u [0x00])) (State.takeIfIdle_taken rfl hp)

/-! ### What goes out on the link (R102, R104, R105, R110) -/

theorem endBytes_eq (c : BitVec 16) : endBytes c = [0xC3, c.extractLsb' 8 8, c.extractLsb' 0 8] := by
  have high : byteOf (c.toNat / 256) = c.extractLsb' 8 8 := BitVec.eq_of_toNat_eq (by simp [byteOf, Nat.shiftRight_eq_div_pow])
  have low : byteOf c.toNat = c.extractLsb' 0 8 := BitVec.eq_of_toNat_eq (by simp [byteOf])
  rw [endBytes, be16Of, high, low]

/-- With no region, or an ABORT message owed, no REGION begins (R102, R110). -/
theorem State.startRegion_same (h : s.streamer.region = none ∨ s.link.abortsOwed ≠ 0) : s.startRegion = s := by
  unfold State.startRegion
  rcases h with h | h
  · rw [h]
  · cases s.streamer.region with
    | none => rfl
    | some r => exact if_neg fun hr => h hr.1

/-- Settles O35. -/
theorem linkMessagesGoOut : Obligations.LinkMessagesGoOut := by
  refine ⟨fun f px py q => ?_, fun v => ⟨rfl, rfl⟩, fun s r => ⟨fun hs hr hb => ⟨fun p rest hp => ?_, fun hsent => ?_⟩,
    fun k hk hreg => ?_, fun h1 hr hb => ?_⟩⟩
  · cases f <;> rfl
  · show execPixelSent s = _
    simp [execPixelSent, hs, hr, hb, hp, addChecksum, dataBytes]
  · show execEndSent s = _
    simp [execEndSent, hs, hr, hb, hsent, endBytes_eq, Rect.pixels]
  · show execAbortMessageSent s = _
    rw [execAbortMessageSent, if_neg (by omega), hk]
    refine congrArg Host.Outcome.next (State.startRegion_same ?_)
    exact hreg.imp id fun hk => fun h0 => absurd h0 hk
  · show execAbortMessageSent s = _
    simp [execAbortMessageSent, h1, State.startRegion, hr, hb, State.regionValues?, State.window, abortBytes]

/-! ### The panel's answers (R106 to R109) -/

theorem exec_panel_ignored (h : s.streamer.state ≠ .awaitAnswer) :
    ∀ c ∈ [Instr.panelAccept, .panelRefuse, .answerTimeout], exec c s = .next s := by
  intro c hc
  simp only [List.mem_cons, List.not_mem_nil, or_false] at hc
  rcases hc with rfl | rfl | rfl <;> exact congrArg Host.Outcome.next (if_neg h)

/-- A failure's command and its cause (R107, R108). -/
theorem exec_answerFailure (h : s.streamer.state = .awaitAnswer) :
    exec .panelRefuse s = .next (s.answerFailure .refused) ∧ exec .answerTimeout s = .next (s.answerFailure .noAnswer) :=
  ⟨congrArg Host.Outcome.next (if_pos h), congrArg Host.Outcome.next (if_pos h)⟩

/-- An attempt begins REGION at once while no ABORT message is owed (R102). -/
theorem State.beginAttempt_free (h : s.link.abortsOwed = 0) (w : Fin 8) (q : Rect) : s.beginAttempt w q = { s with
    streamer := { s.streamer with
      state := .sending, answerTimer := none, region := some ⟨w, q, true, 0, [], [], 0, 0⟩ }
    link := { s.link with log := s.link.log ++ [.regionBegun (regionBytes s.streamer.panelFormat
      (((s.window w).values?.bind WindowValues.origin).getD (0, 0)) q)] } } := by
  simp [State.beginAttempt, State.startRegion, Region.fresh, State.regionValues?, State.window, h]

/-- Settles O36. -/
theorem panelAnswers : Obligations.PanelAnswers := by
  refine fun s => ⟨exec_panel_ignored, fun h => ?_⟩
  intro left accepted
  have haccept : exec .panelAccept s = .next (State.regionOver { s with damage := { s.damage with records := left } }) := by
    rw [← State.regionEnd_eq_regionOver]
    exact congrArg Host.Outcome.next (if_pos h)
  obtain ⟨hrefuse, htimeout⟩ := exec_answerFailure h
  refine ⟨fun hm hp => ?_, fun q hm hp => ?_, fun q hm ho hp => ?_, fun hm ho hp => ?_, fun hm ho => ?_, fun r hr h0 =>
    ⟨fun hleft c hc => ?_, fun hleft => ?_⟩⟩
  · rw [haccept]
    simp [State.regionOver, hm, hp, accepted]
  · rw [haccept]
    simp [State.regionOver, hm, hp, accepted]
  · rw [haccept]
    simp [State.regionOver, hm, ho, hp, accepted]
  · rw [haccept]
    simp [State.regionOver, hm, ho, hp, accepted]
  · rw [haccept]
    simp [State.regionOver, hm, ho, accepted]
  · have hresend (cause : LinkCause) := State.answerFailure_resend (cause := cause) hr hleft
    rw [State.beginAttempt_free (by exact h0)] at hresend
    simp only [List.mem_cons, List.not_mem_nil, or_false] at hc
    rcases hc with rfl | rfl
    · rw [hrefuse, hresend]
      rfl
    · rw [htimeout, hresend]
      rfl
  · intro stalled
    exact ⟨hrefuse.trans (congrArg Host.Outcome.next (State.answerFailure_stall hr hleft)),
      htimeout.trans (congrArg Host.Outcome.next (State.answerFailure_stall hr hleft))⟩

end Sys2Proof.Machine
end


section
/-!
PROOF. Events and the interrupt (chapter 9): an event posted, the bytes of a record, EVENTS_READ and IRQ_MASK.
-/

namespace Sys2Proof.Machine

variable {s t : State}

/-! ### Posting (R182 to R189) -/

/-- IRQ after an event is appended: as before, or the event's own kind is enabled (R189). -/
theorem irq_append (r : EventRecord) (c : Byte) :
    State.irq { s with events := { s.events with records := s.events.records ++ [r], counter := c } }
      = (s.irq || s.events.enables r.event) := by
  simp [State.irq, EventQueue.enables]

/-- IRQ does not depend on a record's lost mark (R185, R189). -/
theorem irq_lost {older : List EventRecord} {newest : EventRecord} (h : s.events.records = older ++ [newest]) (c : Byte) :
    State.irq { s with events := { s.events with records := older ++ [{ newest with lost := true }], counter := c } } = s.irq := by
  simp [State.irq, EventQueue.enables, h]

/-- An event below 16 records is appended with the counter's value (R184). -/
theorem State.post_room {e : Event} (h : s.events.records.length < 16) : s.post e = { s with events := { s.events with
    records := s.events.records ++ [⟨s.events.counter, e, false⟩], counter := s.events.counter + 1 } } := by
  simp [State.post, EventQueue.post, h]

/-- An event at 16 records is discarded and marks the newest one (R185). -/
theorem State.post_full {e : Event} (h : 16 ≤ s.events.records.length) : ∃ older newest,
    s.events.records = older ++ [newest] ∧ s.post e = { s with events := { s.events with
      records := older ++ [{ newest with lost := true }], counter := s.events.counter + 1 } } := by
  rcases List.eq_nil_or_concat s.events.records with hr | ⟨older, newest, hr⟩
  · simp [hr] at h
  · rw [List.concat_eq_append] at hr
    refine ⟨older, newest, hr, ?_⟩
    have hmark : markLast s.events.records = older ++ [{ newest with lost := true }] := by rw [hr, markLast_append]
    simp [State.post, EventQueue.post, Nat.not_lt.mpr h, hmark]

/-- Settles O38. -/
theorem eventPosting : Obligations.EventPosting := by
  refine ⟨fun q e => ?_, fun s => ?_, fun s e => ⟨fun h => ?_, fun h => ?_, rfl, fun es => s.postTogether_order es⟩⟩
  · cases e <;> rfl
  · rw [State.irq, List.any_eq_true]
  · have hpost := State.post_room h (e := e)
    exact ⟨hpost, by rw [hpost, irq_append]⟩
  · obtain ⟨older, newest, hr, hpost⟩ := State.post_full h (e := e)
    exact ⟨older, newest, hr, hpost, by rw [hpost, irq_lost hr]⟩

/-! ### The bytes of a record (R16) -/

/-- The sixteen bytes of an event record, by the fields that its kind fills (R16). -/
theorem EventRecord.bytes_eq (n : Byte) (e : Event) (lost : Bool) : EventRecord.bytes ⟨n, e, lost⟩ =
    [n, byteOf e.kindCode,
      byteOf ((if e.window? = none then 0 else 1) + (if e.address? = none then 0 else 2) + if lost = true then 4 else 0),
      byteOf ((e.window?.map Fin.val).getD 0), byteOf (e.address?.getD 0), byteOf (e.address?.getD 0 / 256),
      byteOf (e.address?.getD 0 / 65536), byteOf (e.address?.getD 0 / 16777216)]
    ++ (match e.rect? with
      | none => [0, 0, 0, 0, 0, 0]
      | some q => [byteOf q.x0, byteOf (q.x0 / 256 % 16 + 16 * (q.y0 % 16)), byteOf (q.y0 / 16)]
        ++ [byteOf q.x1, byteOf (q.x1 / 256 % 16 + 16 * (q.y1 % 16)), byteOf (q.y1 / 16)])
    ++ [e.detailA, e.detailB] := by
  have hflags : flagBits [e.window?.isSome, e.address?.isSome, lost]
      = (if e.window? = none then 0 else 1) + (if e.address? = none then 0 else 2) + if lost = true then 4 else 0 := by
    cases e.window? <;> cases e.address? <;> cases lost <;> simp [flagBits]
  rw [EventRecord.bytes, hflags]
  cases e.rect? with
  | none => rfl
  | some q => simp only [rectOf, pairOf, Nat.mul_comm _ 16]; rfl

/-- Bit 7 of a byte is set from 80h on. -/
theorem bit7_iff {m : Byte} : m.getLsbD 7 = true ↔ 128 ≤ m.toNat := by
  revert m
  decide

/-- Settles O39. -/
theorem eventCommands : Obligations.EventCommands := by
  refine ⟨fun n lost => ?_, fun s m h => ⟨?_, exec_irqMask none h, fun hm => ?_, fun hm => ?_⟩⟩
  · intro pair row reason creator result
    refine ⟨fun why w a => ?_, fun w a => ?_, fun write c a => ?_, fun w a => ?_, fun w q cause => ?_, fun w => ?_, fun c r => ?_,
      fun k => ?_, fun k w r => ?_⟩
    · refine (EventRecord.bytes_eq n (.hostRefused why w a) lost).trans ?_
      cases why <;> rfl
    · exact EventRecord.bytes_eq n (.hostReadTimeout w a) lost
    · refine (EventRecord.bytes_eq n (.drainTimeout write c a) lost).trans ?_
      cases c <;> rfl
    · exact EventRecord.bytes_eq n (.streamTimeout w a) lost
    · refine (EventRecord.bytes_eq n (.linkFail w q cause) lost).trans ?_
      cases cause <;> rfl
    · exact EventRecord.bytes_eq n (.damageCollapse w) lost
    · refine (EventRecord.bytes_eq n (.opDone c r) lost).trans ?_
      cases r <;> rfl
    · exact EventRecord.bytes_eq n (.profileLoaded k) lost
    · refine (EventRecord.bytes_eq n (.profileFault k w r) lost).trans ?_
      cases r <;> rfl
  · rw [exec_eventsRead h]
    have hleft : s.events.records.length - (s.events.records.take 4).length = s.events.records.length - 4 := by
      rw [List.length_take]
      omega
    refine congrArg (fun l => Host.Outcome.next (State.reply _ l)) ?_
    rw [EventQueue.readData, Config.eventsPerRead, hleft, List.length_take]
  · have h7 : m.getLsbD 7 = true := bit7_iff.mpr hm
    rw [exec_irqMask (some m) h]
    exact congrArg Host.Outcome.next (if_pos h7)
  · have h7 : ¬ m.getLsbD 7 = true := fun h7 => Nat.not_le.mpr hm (bit7_iff.mp h7)
    refine ⟨_, (exec_irqMask (some m) h).trans (congrArg Host.Outcome.next (if_neg h7)), rfl, ?_⟩
    exact (BitVec.toNat_setWidth 7 m).trans (Nat.mod_eq_of_lt hm)

end Sys2Proof.Machine
end


section
/-!
PROOF. The profile store's commands (chapter 10): PROFILE_ARM, PROFILE_WRITE, PROFILE_RETIRE and PROFILE_LOAD, and what the end
of a programming leaves in the slot.
-/

namespace Sys2Proof.Machine

variable {s t : State}

/-! ### The operations that bar a change of the store (R178) -/

theorem State.storeBusy_iff : s.storeBusy = true ↔ (∃ n, s.mgmt.slot = some (.profileWrite n))
    ∨ (∃ n, s.mgmt.slot = some (.profileLoad n)) ∨ ∃ p, s.mgmt.slot = some (.softReset p) := by
  unfold State.storeBusy
  cases s.mgmt.slot with
  | none => simp
  | some o => cases o <;> simp

/-! ### PROFILE_ARM, PROFILE_WRITE and PROFILE_RETIRE -/

theorem exec_profileArm_none (h : s.ready) {b : Byte} (hb : 4 ≤ b.toNat) :
    exec (.profileArm b) s = .next (s.reply [0x03]) := by
  rw [exec_profileArm b h, slotNumber_eq_none.mpr hb]

theorem exec_profileArm_some (h : s.ready) {b : Byte} {k : Fin 4} (hb : b.toNat = k.val) :
    exec (.profileArm b) s = .next { s with mgmt := { s.mgmt with response := [0x00], arm := some k } } := by
  rw [exec_profileArm b h, slotNumber_eq_some.mpr hb]

theorem exec_profileWrite_none (h : s.ready) (ha : s.mgmt.arm = none) :
    exec .profileWrite s = .next (s.reply [0x04]) := by
  rw [exec_profileWrite h, ha]

theorem exec_profileWrite_some (h : s.ready) {k : Fin 4} (ha : s.mgmt.arm = some k) : exec .profileWrite s = .next (
    if s.mgmt.slot.isSome then s.reply [0x02]
    else if s.heldState k ≠ .blank then s.reply [0x04]
    else (s.startWrite k).reply [0x01]) := by
  rw [exec_profileWrite h, ha]

theorem exec_profileRetire_none (h : s.ready) (ha : s.mgmt.arm = none) :
    exec .profileRetire s = .next (s.reply [0x04]) := by
  rw [exec_profileRetire h, ha]

theorem exec_profileRetire_some (h : s.ready) {k : Fin 4} (ha : s.mgmt.arm = some k) : exec .profileRetire s = .next (
    if s.storeBusy then s.reply [0x02]
    else if s.heldState k ≠ .written then s.reply [0x04]
    else (s.markSlot k 510 .retired).reply [0x00]) := by
  rw [exec_profileRetire h, ha]

/-- Settles O40. -/
theorem profileArmWriteRetire : Obligations.ProfileArmWriteRetire := by
  refine ⟨fun s => s.storeBusy_iff, fun s b h => ⟨exec_profileArm_none h, fun k => exec_profileArm_some h,
    fun ha => ⟨exec_profileWrite_none h ha, exec_profileRetire_none h ha⟩, fun k ha => ?_⟩⟩
  rw [exec_profileWrite_some h ha, exec_profileRetire_some h ha]
  refine ⟨fun hs => ?_, fun hs hk => ?_, fun hs hk => ?_, fun hs => ?_, fun hs hk => ?_, fun hs hk => ?_⟩
  · rw [if_pos hs]
  · rw [hs, if_neg (by decide), if_pos hk]
  · rw [hs, if_neg (by decide), if_neg (not_not_intro hk)]
    rfl
  · rw [if_pos (s.storeBusy_iff.mpr hs)]
  · rw [hs, if_neg (by decide), if_pos hk]
  · rw [hs, if_neg (by decide), if_neg (not_not_intro hk)]
    rfl

/-! ### PROFILE_LOAD -/

/-- Every window is UNUSED, and nothing is in the merge queue or on its way to it (R211). -/
theorem State.quietForLoad_iff : s.quietForLoad = true
    ↔ (∀ n, s.window n = .unused) ∧ s.merge.entries = [] ∧ s.host.writeBeat = false := by
  simp only [State.quietForLoad, Bool.and_eq_true, List.all_eq_true, beq_iff_eq, List.isEmpty_iff, Bool.not_eq_true',
    and_assoc]
  refine and_congr_left fun _ => ⟨fun h n => h _ (Vector.mem_toList_iff.mpr (Vector.getElem_mem n.isLt)), fun h w hw => ?_⟩
  obtain ⟨i, hi, rfl⟩ := Vector.getElem_of_mem (Vector.mem_toList_iff.mp hw)
  exact h ⟨i, hi⟩

theorem exec_profileLoad_none (h : s.ready) {b : Byte} (hb : 4 ≤ b.toNat) :
    exec (.profileLoad b) s = .next (s.reply [0x03]) := by
  rw [exec_profileLoad b h, slotNumber_eq_none.mpr hb]

theorem exec_profileLoad_some (h : s.ready) {b : Byte} {k : Fin 4} (hb : b.toNat = k.val) : exec (.profileLoad b) s = .next (
    if s.mgmt.slot.isSome then s.reply [0x02]
    else if !s.quietForLoad then s.reply [0x04]
    else if s.heldState k ≠ .written then s.reply [0x04]
    else State.reply (((s.setSlot (some (.profileLoad k))).setPort .held).setLoad (some ⟨.profileLoad k, .examining k⟩)) [0x01]) := by
  rw [exec_profileLoad b h, slotNumber_eq_some.mpr hb]

/-- Settles O43. -/
theorem profileLoadTaken : Obligations.ProfileLoadTaken := by
  refine fun s b h => ⟨exec_profileLoad_none h, fun hb hs => ?_, fun k hb hs => ?_⟩
  · rw [exec_profileLoad_some h (k := ⟨b.toNat, hb⟩) rfl, if_pos hs]
  · rw [exec_profileLoad_some h hb, hs, if_neg (by decide)]
    refine ⟨fun hn => ?_, fun hw hm hk => ?_, fun hw hm hbeat hk => ?_⟩
    · have hq : ¬ s.quietForLoad = true := by
        rw [State.quietForLoad_iff]
        rintro ⟨hw, hm, _⟩
        rcases hn with ⟨n, hn⟩ | hn
        · exact hn (hw n)
        · exact hn hm
      rw [if_pos (by simpa using hq)]
    · rw [if_pos hk, ite_self]
    · have hq : s.quietForLoad = true := State.quietForLoad_iff.mpr ⟨hw, hm, hbeat⟩
      rw [hq, if_neg (by decide), if_neg (not_not_intro hk)]
      rfl

/-! ### The end of a programming (R200) -/

/-- The read-back matches when every byte of the image reads as it was captured. -/
theorem readBackMatches_iff {m : List Host.Cell} {w : Programming} (hl : w.image.length = 508) :
    readBackMatches m w = true ↔ ∀ i < 508, otpRead m (slotAddress w.slot i) = w.image.getD i 0 := by
  have hlen : ((slotImage m w.slot).take Config.imageBytes).length = w.image.length := by
    rw [List.length_take, slotImage_length, hl]
    rfl
  simp only [readBackMatches, beq_iff_eq]
  rw [List.ext_get_iff]
  simp only [hlen, true_and, hl]
  refine forall_congr' fun i => ⟨fun h hi => ?_, fun h hi _ => ?_⟩
  · have := h hi hi
    simpa [slotImage, hi, hl, slotAddress] using this
  · have := h hi
    simpa [slotImage, hi, hl, slotAddress] using this

/-- An image's bytes after the end of its programming, whatever mark is programmed last (R199). -/
theorem State.bytesEnded_image {w : Programming} {failed : List (Nat × Byte)} (hwf : otpWf s.store.otp = true)
    (hl : w.image.length = 508) {i : Nat} (hi : i < 508) : otpRead (s.bytesEnded w failed) (slotAddress w.slot i)
      = otpRead s.store.otp (slotAddress w.slot i) &&& (w.image.getD i 0 ||| failedAt failed i) := by
  have hp := otpRead_programImage failed (m := s.store.otp) (hl.symm ▸ hi) hwf
  unfold State.bytesEnded
  split
  · rw [otpRead_program_other _ _ (slotAddress_ne (by omega) (by omega) (.inr (by omega))), hp]
  · exact hp

/-- A write is verified when the image reads back and the finished mark reads set (R200). -/
theorem State.writeVerified_iff {w : Programming} {failed : List (Nat × Byte)} (hwf : otpWf s.store.otp = true)
    (hl : w.image.length = 508) : s.writeVerified w failed = true
      ↔ (∀ i < 508, otpRead (s.bytesEnded w failed) (slotAddress w.slot i) = w.image.getD i 0)
        ∧ otpRead s.store.otp (slotAddress w.slot 509) &&& failedAt failed 509 ≠ 0xFF := by
  have hmark : otpRead (programImage s.store.otp w failed) (slotAddress w.slot 509)
      = otpRead s.store.otp (slotAddress w.slot 509) := otpRead_programImage_other _ failed fun i hi =>
    slotAddress_ne (by omega) (by omega) (.inr (by omega))
  have himage : readBackMatches (programImage s.store.otp w failed) w = true
      ↔ ∀ i < 508, otpRead (s.bytesEnded w failed) (slotAddress w.slot i) = w.image.getD i 0 := by
    rw [readBackMatches_iff hl]
    refine forall₂_congr fun i hi => ?_
    rw [State.bytesEnded_image hwf hl hi, otpRead_programImage failed (hl.symm ▸ hi) hwf]
  rw [State.writeVerified, Bool.and_eq_true, bne_iff_ne, himage, otpRead_program_same _ _ (programImage_wf _ _ hwf), hmark]

/-- Settles O42. -/
theorem programmingEndOutcomes : Obligations.ProgrammingEndOutcomes := by
  intro s w failed hwf hw hl
  have hexec : exec (.programmingEnd failed) s = .next (s.endProgramming w failed) := by
    show execProgrammingEnd failed s = _
    simp only [execProgrammingEnd, hw]
  have hver := State.writeVerified_iff (failed := failed) hwf hl
  have hother {a : Nat} (ha : ∀ i < 512, a ≠ slotAddress w.slot i) :
      otpRead (s.bytesEnded w failed) a = otpRead s.store.otp a :=
    State.bytesEnded_other hl (fun i hi => ha i (by omega)) (ha 509 (by omega))
  have himage (i : Nat) (hi : i < 508) := State.bytesEnded_image (failed := failed) hwf hl hi
  cases hv : s.writeVerified w failed with
  | true =>
    rw [State.endProgramming_verified hv] at hexec
    rw [hv] at hver
    refine ⟨_, true, hexec, rfl, ?_⟩
    rw [State.post_store]
    dsimp only
    exact ⟨rfl, rfl, himage, fun a ha => hother ha, hver, rfl,
      fun _ => State.finished_set hv, nofun⟩
  | false =>
    rw [State.endProgramming_failed hv] at hexec
    rw [hv] at hver
    have hlast {i : Nat} (hi : i < 508) : otpRead (otpProgram (s.bytesEnded w failed) (slotAddress w.slot 511) 0x00)
        (slotAddress w.slot i) = otpRead (s.bytesEnded w failed) (slotAddress w.slot i) :=
      otpRead_program_other _ _ (slotAddress_ne (by omega) (by omega) (.inr (by omega)))
    refine ⟨_, false, hexec, rfl, ?_⟩
    rw [State.post_store]
    dsimp only
    refine ⟨rfl, rfl, fun i hi => (hlast hi).trans (himage i hi), fun a ha =>
      (otpRead_program_other _ _ (ha 511 (by omega))).trans (hother ha), ?_, rfl, nofun, fun _ => ?_⟩
    · refine hver.trans (and_congr_left fun _ => forall₂_congr fun i hi => ?_)
      exact Eq.congr_left (hlast hi).symm
    · exact (otpRead_program_same _ _ (State.bytesEnded_wf hwf)).trans BitVec.and_zero

end Sys2Proof.Machine
end


section
/-!
PROOF. The captured image of PROFILE_WRITE (R18, R198): where its parts stand, that it is good, and what it reads back as.
-/

namespace Sys2Proof.Machine

/-! ### Bytes of lists put together -/

theorem byteAt_append_left {bs : List Byte} (cs : List Byte) {i : Nat} (h : i < bs.length) :
    byteAt (bs ++ cs) i = byteAt bs i := congrArg BitVec.toNat (List.getD_append bs cs 0 i h)

theorem byteAt_append_right {bs : List Byte} (cs : List Byte) {i : Nat} (h : bs.length ≤ i) :
    byteAt (bs ++ cs) i = byteAt cs (i - bs.length) := congrArg BitVec.toNat (List.getD_append_right bs cs 0 i h)

theorem byteAt_replicate_zero (k i : Nat) : byteAt (List.replicate k 0) i = 0 := by
  by_cases h : i < k
  · simp [byteAt, List.getD_eq_getElem?_getD, h]
  · simp [byteAt, List.getD_eq_getElem?_getD, h]

/-- Bit k of packed flags is flag k. -/
theorem flagBits_testBit (l : List Bool) (k : Nat) : (flagBits l).testBit k = l.getD k false := by
  induction l generalizing k with
  | nil => simp [flagBits]
  | cons b l ih =>
    cases k with
    | zero => cases b <;> simp [flagBits, Nat.testBit_zero]
    | succ k =>
      have hhalf : ((if b = true then 1 else 0) + 2 * flagBits l) / 2 = flagBits l := by
        cases b with
        | false => simp
        | true => simp; omega
      rw [flagBits, Nat.testBit_succ, hhalf, ih]
      rfl

/-- Part k of parts of one size put together. -/
theorem flatMap_part {α β : Type} {f : α → List β} {size : Nat} (hf : ∀ a, (f a).length = size) (l : List α) {k : Nat}
    (hk : k < l.length) : ((l.flatMap f).drop (size * k)).take size = f l[k] := by
  induction l generalizing k with
  | nil => simp at hk
  | cons a l ih =>
    rw [List.flatMap_cons]
    cases k with
    | zero => simp [← hf a]
    | succ k =>
      have hdrop : size * (k + 1) = (f a).length + size * k := by rw [hf, Nat.mul_succ, Nat.add_comm]
      rw [hdrop, List.drop_length_add_append]
      exact ih (Nat.lt_of_succ_lt_succ hk)

/-! ### The parts of a captured image -/

section Parts

variable (g : Settings) (b : Table)

/-- The present map (R18): bit k is set for an ACTIVE window k. -/
def presentMap : Byte := byteOf (flagBits (b.windows.toList.map fun w => w.active?.isSome))

/-- What an image holds for one window: its descriptor, or 00h for a window that is not ACTIVE. -/
def windowPart (w : Window) : List Byte :=
  match w.active? with
  | some v => v.descriptor
  | none => List.replicate 32 0

/-- Bytes 0 to 15 of an image: the settings, the present map and padding. -/
def imageHead : List Byte := g.bytes ++ [presentMap b] ++ List.replicate 6 0

/-- Bytes 0 to 505 of an image, over which its checksum goes. -/
def imageBody : List Byte := imageHead g b ++ b.windows.toList.flatMap windowPart ++ List.replicate 234 0

theorem captureImage_parts : captureImage g b = imageBody g b ++ le16Of (sumBytes (imageBody g b) % 65536) := rfl

theorem windowPart_length (w : Window) : (windowPart w).length = 32 := by
  unfold windowPart
  cases w.active? with
  | none => rfl
  | some v => exact v.descriptor_length

theorem imageHead_length : (imageHead g b).length = 16 := rfl

theorem imageBody_length : (imageBody g b).length = 506 := by
  simp only [imageBody, List.length_append, imageHead_length, windowParts_length b windowPart_length, List.length_replicate]

theorem captureImage_head {i : Nat} (h : i < 16) : byteAt (captureImage g b) i = byteAt (imageHead g b) i := by
  rw [captureImage_parts, byteAt_append_left _ (by rw [imageBody_length]; omega), imageBody, List.append_assoc,
    byteAt_append_left _ h]

theorem captureImage_padding {i : Nat} (h1 : 272 ≤ i) (h2 : i < 506) : byteAt (captureImage g b) i = 0 := by
  rw [captureImage_parts, byteAt_append_left _ (by rw [imageBody_length]; omega), imageBody, byteAt_append_right,
    byteAt_replicate_zero]
  rw [List.length_append, imageHead_length, windowParts_length b windowPart_length]
  exact h1

theorem captureImage_checksum : byteAt (captureImage g b) 506 + 256 * byteAt (captureImage g b) 507
    = sumBytes ((captureImage g b).take 506) % 65536 := by
  have htake : (captureImage g b).take 506 = imageBody g b := by
    rw [captureImage_parts, List.take_append_of_le_length (by rw [imageBody_length]), List.take_of_length_le]
    rw [imageBody_length]
  rw [htake, captureImage_parts, byteAt_append_right _ (by rw [imageBody_length]), byteAt_append_right _ (by rw [imageBody_length]; omega),
    imageBody_length]
  exact le16At_le16Of (Nat.mod_lt _ (by decide))

/-- Window k's part stands in the 32 bytes from 16 + 32k on. -/
theorem captureImage_window (n : Fin 8) :
    ((captureImage g b).drop (16 + 32 * n.val)).take 32 = windowPart b.windows[n.val] := by
  have hlen := windowParts_length b windowPart_length
  have hk := n.isLt
  rw [captureImage_parts, imageBody, List.append_assoc, List.append_assoc, ← imageHead_length g b,
    List.drop_length_add_append, List.drop_append_of_le_length (by omega),
    List.take_append_of_le_length (by rw [List.length_drop]; omega)]
  exact flatMap_part windowPart_length _ (by rw [Vector.length_toList]; exact hk)

/-- Bit k of the present map is set exactly for an ACTIVE window k. -/
theorem captureImage_present (n : Fin 8) :
    (byteAt (captureImage g b) 9).testBit n.val = (b.windows[n.val]).active?.isSome := by
  have hmap : byteAt (captureImage g b) 9 = flagBits (b.windows.toList.map fun w => w.active?.isSome) % 2 ^ 8 :=
    captureImage_head g b (by omega)
  rw [hmap, Nat.testBit_mod_two_pow, flagBits_testBit]
  simp

end Parts

/-- Settings in their ranges read back from their nine bytes (R18). -/
theorem parseSettings_captureImage {g : Settings} (b : Table) (hw : 1 ≤ g.waitLimit ∧ g.waitLimit ≤ 64)
    (hh : 1 ≤ g.highWater ∧ g.highWater ≤ 16) (hl : g.linger ≤ 255) (ha : 1 ≤ g.answerLimit ∧ g.answerLimit ≤ 255)
    (hr : g.retries ≤ 3) : parseSettings (captureImage g b) = some g := by
  have hmask : byteAt (captureImage g b) 8 = g.mask.toNat := by
    rw [captureImage_head g b (by omega)]
    have hlt := g.mask.isLt
    exact (BitVec.toNat_setWidth 8 g.mask).trans (Nat.mod_eq_of_lt (by omega))
  have hbyte {i : Nat} {x : Nat} (hi : i < 16) (hx : x ≤ 255) (h : byteAt (imageHead g b) i = x % 256) :
      byteAt (captureImage g b) i = x := by
    rw [captureImage_head g b hi, h, Nat.mod_eq_of_lt (by omega)]
  have hm : g.memSize.code ≤ 255 := by cases g.memSize <;> decide
  have hs : g.mode.code ≤ 255 := by cases g.mode <;> decide
  have hp : g.panelFormat.code ≤ 255 := by cases g.panelFormat <;> decide
  have h1 : byteAt (captureImage g b) 1 = g.waitLimit := hbyte (by omega) (by omega) rfl
  have h2 : byteAt (captureImage g b) 2 = g.highWater := hbyte (by omega) (by omega) rfl
  have h6 : byteAt (captureImage g b) 6 = g.answerLimit := hbyte (by omega) (by omega) rfl
  have h7 : byteAt (captureImage g b) 7 = g.retries := hbyte (by omega) (by omega) rfl
  refine parseSettings_eq_some.mpr ⟨⟨hbyte (by omega) hm rfl, hbyte (by omega) hs rfl, hbyte (by omega) hp rfl⟩,
    ⟨h1, h2, hbyte (by omega) hl rfl, h6, h7, ?_⟩, h1.symm ▸ hw, h2.symm ▸ hh, h6.symm ▸ ha.1, h7.symm ▸ hr, ?_⟩
  · rw [hmask]
    simp
  · rw [hmask]
    exact g.mask.isLt

/-- Settles O41. -/
theorem capturedImageIsGood : Obligations.CapturedImageIsGood := by
  intro s ⟨hsound, _, _⟩ hw hw' hh hh' hl ha ha' hr image
  have hparse : parseSettings image = some s.settings := parseSettings_captureImage s.table ⟨hw, hw'⟩ ⟨hh, hh'⟩ hl ⟨ha, ha'⟩ hr
  refine ⟨captureImage_length _ _, ?_, hparse, fun n => ?_⟩
  · refine imageGood_iff.mpr ⟨(captureImage_checksum _ _).symm, Option.isSome_of_eq_some hparse, fun i h1 h2 => ?_,
      fun i => captureImage_padding _ _⟩
    rw [captureImage_head _ _ h2]
    interval_cases i <;> rfl
  · have hbit : (byteAt image 9).testBit n.val = (s.window n).active?.isSome := captureImage_present _ _ n
    have hpart : (image.drop (16 + 32 * n.val)).take 32 = windowPart (s.window n) := captureImage_window _ _ n
    have hn := hsound n
    cases hwin : s.window n with
    | unused =>
      rw [hwin] at hbit
      exact imageDescriptor_absent hbit
    | draining v =>
      rw [hwin] at hbit
      exact imageDescriptor_absent hbit
    | active v =>
      rw [hwin] at hbit hpart hn
      obtain ⟨_, _, hcheck⟩ := descriptorRoundTrip v (hn v rfl)
      exact ⟨v.descriptor, (imageDescriptor_present hbit).trans (congrArg some hpart), hcheck⟩

end Sys2Proof.Machine
end


section
/-!
PROOF. The host port's requests and answers (R142 to R147), as commands and beat by beat on the host bus.
-/

namespace Sys2Proof.Machine

variable {s t : State}

/-! ### The conditions of the port -/

theorem HostRecord.done_iff {r : HostRecord} : r.done = true ↔ r.length ≤ r.outcomes.length := decide_eq_true_iff

theorem HostRecord.done_eq_false {r : HostRecord} (h : r.outcomes.length < r.length) : r.done = false :=
  decide_eq_false (Nat.not_le.mpr h)

/-- HACCEPT is asserted below 8 records unless the port is HELD or an answer is going out (R142 to R145). -/
theorem State.haccept_iff : s.haccept = true ↔ s.host.state ≠ .held ∧ s.host.requests.length < 8 ∧ s.host.sending = none := by
  simp [State.haccept, Config.requestCapacity, and_assoc]

theorem State.requestGoesOn_iff {hvalid : Bool} :
    s.requestGoesOn hvalid = true ↔ (hvalid = true ∨ s.host.incoming ≠ none) ∧ s.haccept = true := by
  simp [State.requestGoesOn, Option.isSome_iff_ne_none]

/-! ### Requests taken (R142 to R145) -/

/-- The record of a well-formed WRITE carries its beats (R142). -/
theorem recordOf_write {address : Word} {hlen : BitVec 4} {beats : List WriteBeat} (h : beats.length = hlen.toNat + 1) :
    recordOf (.write address hlen beats) = ⟨.write, 4 * (address.toNat / 4), hlen.toNat + 1, beats, none, []⟩ := by
  have hbeats : ((List.range (hlen.toNat + 1)).map fun i => beats.getD i ⟨0, 0⟩) = beats := by
    refine List.ext_getElem (by simp [h]) fun i h1 h2 => ?_
    simp [List.getD_eq_getElem?_getD, h2]
  rw [recordOf, hbeats, Nat.mul_comm]

theorem recordOf_read (address : Word) (hlen : BitVec 4) :
    recordOf (.read address hlen) = ⟨.read, 4 * (address.toNat / 4), hlen.toNat + 1, [], none, []⟩ := by
  rw [recordOf, Nat.mul_comm]

/-- A request waits while HACCEPT is released or another WRITE is under way. -/
theorem exec_hostRequestAccept_waits (r : HostRequest) (h : s.haccept = false ∨ s.host.incoming ≠ none) :
    exec (.hostRequestAccept r) s = .next s := by
  show execHostRequestAccept r s = _
  rw [execHostRequestAccept, if_pos]
  simpa [Option.isSome_iff_ne_none] using h

/-- A request taken is refused whole or joins the queue. -/
theorem exec_hostRequestAccept_taken (r : HostRequest) (ha : s.haccept = true) (hi : s.host.incoming = none) :
    exec (.hostRequestAccept r) s = .next (match s.wholeRefusal (recordOf r) with
      | none => s.enqueue (recordOf r)
      | some why => (s.enqueue { recordOf r with refusal := some why, outcomes := refusedOutcomes (recordOf r).length }).post
          (.hostRefused why none (recordOf r).address)) := by
  show execHostRequestAccept r s = _
  refine congrArg Host.Outcome.next ((if_neg (by simp [ha, hi])).trans ?_)
  cases hr : s.wholeRefusal (recordOf r) <;> simp only [hr]

theorem exec_hostRequestAccept_refused {r : HostRequest} {why : RefuseReason} (ha : s.haccept = true)
    (hi : s.host.incoming = none) (hr : s.wholeRefusal (recordOf r) = some why) : exec (.hostRequestAccept r) s = .next (State.post
      (s.enqueue { recordOf r with refusal := some why, outcomes := refusedOutcomes (recordOf r).length })
      (.hostRefused why none (recordOf r).address)) := by
  rw [exec_hostRequestAccept_taken r ha hi, hr]

theorem exec_hostRequestAccept_joins {r : HostRequest} (ha : s.haccept = true)
    (hi : s.host.incoming = none) (hr : s.wholeRefusal (recordOf r) = none) :
    exec (.hostRequestAccept r) s = .next (s.enqueue (recordOf r)) := by
  rw [exec_hostRequestAccept_taken r ha hi, hr]

theorem State.wholeRefusal_wrap {r : HostRecord} (h : 0xFFFFFFFC < r.address + 4 * (r.length - 1)) :
    s.wholeRefusal r = some .wrap := if_pos h

theorem State.wholeRefusal_resetting {r : HostRecord} (h : r.address + 4 * (r.length - 1) ≤ 0xFFFFFFFC)
    (hs : s.host.state = .refusing) : s.wholeRefusal r = some .resetting := by
  rw [State.wholeRefusal, if_neg (by omega), if_pos hs]

theorem State.wholeRefusal_accepting {r : HostRecord} (h : r.address + 4 * (r.length - 1) ≤ 0xFFFFFFFC)
    (hs : s.host.state = .accepting) : s.wholeRefusal r = none := by
  rw [State.wholeRefusal, if_neg (by omega), hs, if_neg (by decide)]

/-! ### Answers sent whole (R147) -/

/-- The state after the oldest answer has gone out. -/
def State.answerSent (s : State) (q : HostRecord) (rest : List HostRecord) : State :=
  { s with host := { s.host with requests := rest, answers := s.host.answers ++ [q.answer], sending := none } }

theorem exec_hostAnswerTransfer_eq {q : HostRecord} {rest : List HostRecord} (h : s.host.requests = q :: rest) :
    exec .hostAnswerTransfer s = .next (if q.done && !s.requestGoesOn false then s.answerSent q rest else s) := by
  show execHostAnswerTransfer s = _
  rw [execHostAnswerTransfer, h]
  rfl

theorem exec_hostAnswerTransfer_waits {q : HostRecord} {rest : List HostRecord} (h : s.host.requests = q :: rest)
    (hw : q.outcomes.length < q.length ∨ s.host.incoming ≠ none ∧ s.haccept = true) :
    exec .hostAnswerTransfer s = .next s := by
  rw [exec_hostAnswerTransfer_eq h, if_neg]
  rw [Bool.and_eq_true, Bool.not_eq_true', HostRecord.done_iff, Bool.eq_false_iff, ne_eq, State.requestGoesOn_iff]
  rintro ⟨hd, hg⟩
  exact hw.elim (fun hq => by omega) fun hi => hg ⟨.inr hi.1, hi.2⟩

theorem exec_hostAnswerTransfer_goes {q : HostRecord} {rest : List HostRecord} (h : s.host.requests = q :: rest)
    (hd : q.length ≤ q.outcomes.length) (hg : s.host.incoming = none ∨ s.haccept = false) :
    exec .hostAnswerTransfer s = .next (s.answerSent q rest) := by
  rw [exec_hostAnswerTransfer_eq h, if_pos]
  rw [Bool.and_eq_true, Bool.not_eq_true', HostRecord.done_iff, Bool.eq_false_iff, ne_eq, State.requestGoesOn_iff]
  refine ⟨hd, fun ⟨hi, ha⟩ => ?_⟩
  rcases hg with hg | hg
  · exact hi.elim Bool.false_ne_true (· hg)
  · rw [hg] at ha
    cases ha

/-! ### The host bus -/

theorem State.takeAddress_waits (h : s.haccept = false ∨ s.host.incoming ≠ none) (write : Bool) (a : Word) (hlen : BitVec 4) :
    hostBusStep (.request write a hlen) s = .next s := by
  show s.takeAddress write a hlen = _
  rw [State.takeAddress, if_pos]
  simpa [Option.isSome_iff_ne_none] using h

theorem State.takeAddress_taken (ha : s.haccept = true) (hi : s.host.incoming = none) (write : Bool) (a : Word)
    (hlen : BitVec 4) : hostBusStep (.request write a hlen) s =
      if write then .next (s.setIncoming (some ⟨a, hlen, []⟩)) else exec (.hostRequestAccept (.read a hlen)) s := by
  show s.takeAddress write a hlen = _
  rw [State.takeAddress, if_neg (by simp [ha, hi])]

/-- A beat waits while HACCEPT is released. -/
theorem hostBus_beat_waits (h : s.haccept = false) (b : WriteBeat) : hostBusStep (.beat b) s = .next s := by
  simp only [hostBusStep]
  split
  · simp [State.takeBeat, h]
  · rfl

/-- A WRITE is accepted with its last beat, from its address on (R142). -/
theorem hostBus_write (ha : s.haccept = true) (hi : s.host.incoming = none) (a : Word) (hlen : BitVec 4)
    (beats : List WriteBeat) (last : WriteBeat) (hl : beats.length = hlen.toNat) :
    hostBusStep (.beat last) (beats.foldl (fun t b => t.hostBus (.beat b)) (s.hostBus (.request true a hlen)))
      = exec (.hostRequestAccept (.write a hlen (beats ++ [last]))) s := by
  have hbegin : s.hostBus (.request true a hlen) = s.setIncoming (some ⟨a, hlen, []⟩) := by
    rw [State.hostBus, State.takeAddress_taken ha hi]
    rfl
  have hback (i : Option Incoming) : (s.setIncoming i).setIncoming none = s := by
    simp only [State.setIncoming, ← hi]
  have haccept : (s.setIncoming (some ⟨a, hlen, beats⟩)).haccept = true := ha
  have hlast : ¬ beats.length < hlen.toNat := by omega
  rw [hbegin, hostBus_beats ha a hlen beats [] (by simp [hl]), List.nil_append]
  show (s.setIncoming (some ⟨a, hlen, beats⟩)).takeBeat ⟨a, hlen, beats⟩ last = _
  rw [State.takeBeat, haccept, if_neg (by decide), if_neg hlast, hback]

/-- An answer due begins to go out (R142, R147). -/
theorem hostBus_answerBegins {q : HostRecord} {rest : List HostRecord} (h : s.host.requests = q :: rest)
    (hd : q.length ≤ q.outcomes.length) (hs : s.host.sending = none) {hvalid : Bool} (hg : s.requestGoesOn hvalid = false) :
    hostBusStep (.answerBegins hvalid) s = .next (s.setSending (some 0)) := by
  refine congrArg Host.Outcome.next (if_pos ?_)
  simp [HostPort.answerDue, h, hs, HostRecord.done_iff.mpr hd, hg]

/-- No answer begins while a request transfer goes on. -/
theorem hostBus_answerBegins_waits {hvalid : Bool} (hg : s.requestGoesOn hvalid = true) :
    hostBusStep (.answerBegins hvalid) s = .next s :=
  congrArg Host.Outcome.next (if_neg (by simp [hg]))

/-- An answer beat gone over is followed by the next, or by the end of the transfer. -/
theorem hostBus_answerBeat {q : HostRecord} {rest : List HostRecord} (h : s.host.requests = q :: rest) {k : Nat}
    (hs : s.host.sending = some k) : hostBusStep .answerBeat s =
      if k + 1 < q.answer.length then .next (s.setSending (some (k + 1))) else exec .hostAnswerTransfer s := by
  simp only [hostBusStep, hs, h, List.head?_cons, Option.map_some, Option.getD_some]

/-- Settles O44. -/
theorem hostRequestsAndAnswers : Obligations.HostRequestsAndAnswers := by
  refine ⟨fun s r record hwf hrec => ?_, fun s => ?_, fun s q rest hq hd => ?_⟩
  · have hrecord : recordOf r = record := by
      cases r with
      | read a hlen => exact (recordOf_read a hlen).trans hrec.symm
      | write a hlen beats => exact (recordOf_write (beq_iff_eq.mp hwf)).trans hrec.symm
    subst hrecord
    refine ⟨fun hw => exec_hostRequestAccept_waits r ?_, fun hstate hroom hsend hinc => ?_, fun q rest hq =>
      ⟨exec_hostAnswerTransfer_waits hq, exec_hostAnswerTransfer_goes hq⟩⟩
    · by_cases hi : s.host.incoming = none
      · refine .inl (Bool.eq_false_iff.mpr fun ha => ?_)
        obtain ⟨h1, h2, h3⟩ := State.haccept_iff.mp ha
        rcases hw with hw | hw | hw | hw
        · exact h1 hw
        · omega
        · exact hw h3
        · exact hw hi
      · exact .inr hi
    · have ha : s.haccept = true := State.haccept_iff.mpr ⟨hstate, hroom, hsend⟩
      exact ⟨fun hlast => exec_hostRequestAccept_refused ha hinc (State.wholeRefusal_wrap hlast),
        fun hlast hp => exec_hostRequestAccept_refused ha hinc (State.wholeRefusal_resetting hlast hp),
        fun hlast hp => exec_hostRequestAccept_joins ha hinc (State.wholeRefusal_accepting hlast hp)⟩
  · refine ⟨State.haccept_iff, fun i r hr hn hg => ?_, fun i r hr hd hi => ?_, State.answer_lines_rest, fun ha write a hlen beat =>
      ⟨State.takeAddress_waits (.inl ha) write a hlen, hostBus_beat_waits ha beat⟩, fun hi => ⟨State.takeAddress_waits (.inr hi),
      fun ha hvalid => hostBus_answerBegins_waits (State.requestGoesOn_iff.mpr ⟨.inr hi, ha⟩)⟩, fun ha hi a hlen =>
      ⟨State.takeAddress_taken ha hi false a hlen, fun beats last => hostBus_write ha hi a hlen beats last⟩⟩
    · have hout : ¬ (i = 0 ∧ s.host.sending.isSome = true) := by
        rintro ⟨h0, h1⟩
        rcases hg with hg | hg
        · exact hg h0
        · rw [hg] at h1
          cases h1
      simp only [HostPort.answerState?, hr, Option.map_some, if_neg hout, HostRecord.done_eq_false hn, if_neg Bool.false_ne_true]
    · simp only [HostPort.answerState?, hr, Option.map_some, if_neg (fun h : _ ∧ _ => hi h.1), HostRecord.done_iff.mpr hd, if_true]
  · intro out going
    have hdone := HostRecord.done_iff.mpr hd
    refine ⟨fun hs => ⟨?_, fun hi => ?_, fun ha hvalid => ?_, fun ha => ?_⟩, fun k a hk => ?_⟩
    · simp [HostPort.answerState?, hq, hs, hdone]
    · exact hostBus_answerBegins hq hd hs (by simp [State.requestGoesOn, hi])
    · exact hostBus_answerBegins hq hd hs (by simp [State.requestGoesOn, ha])
    · exact hostBus_answerBegins_waits (State.requestGoesOn_iff.mpr ⟨.inl rfl, ha⟩)
    · have hout : q.answer = out := rfl
      have hbeat : (going k).host.answerBeat? = some a := by
        show (s.host.requests.head?.bind fun r => r.answer[k]?) = some a
        rw [hq]
        exact hk
      have hq' : (going k).host.requests = q :: rest := hq
      have ha : (going k).haccept = false := Bool.eq_false_iff.mpr fun h => by
        obtain ⟨_, _, hs⟩ := State.haccept_iff.mp h
        cases hs
      have hnext := hostBus_answerBeat hq' (k := k) rfl
      rw [hout] at hnext
      refine ⟨by simp [HostPort.answerState?, going, hq], by rw [State.hans, hbeat]; rfl, by rw [State.herr, hbeat]; rfl,
        by rw [State.had, hbeat]; rfl, ha, fun hlt => hnext.trans (if_pos hlt), fun hlast => ?_⟩
      have hend := hnext.trans (if_neg (by omega))
      exact ⟨hend, hend.trans (exec_hostAnswerTransfer_goes hq' hd (.inr ha))⟩

end Sys2Proof.Machine
end


section
/-!
PROOF. BEAT_DECODE: what each beat of the head request becomes, by the window that claims its address (R37 to R40, R146 to R155).
-/

namespace Sys2Proof.Machine

variable {s t : State}

/-! ### What follows with an empty slot (log 6) -/

/-- With an empty slot and no drain choice open, a change that leaves the queue alone and no write beat in action is followed
by nothing but its events. -/
theorem State.goesOn_calm (hs : DrainChosen s) (hfree : t.mgmt.slot = none) (hm : t.merge = s.merge)
    (hw : t.host.writeBeat = false) (es : List Event) : t.goesOn es = t.postTogether es := by
  rw [State.goesOn_free hfree]
  have hslot : (t.postTogether es).mgmt.slot ≠ some (.softReset .phase3) := by
    rw [show (t.postTogether es).mgmt = t.mgmt from rfl, hfree]
    exact nofun
  exact hs.calm (.of_same hm (.inr hw) (.inr hslot))

/-! ### The head request and the end of a beat (R146) -/

theorem HostPort.head?_first {p : HostPort} {older newer : List HostRecord} {r : HostRecord} (h : p.requests = older ++ r :: newer)
    (ho : ∀ q ∈ older, q.length ≤ q.outcomes.length) (hr : r.outcomes.length < r.length) : p.head? = some r := by
  have hnone : older.find? (fun q => !q.done) = none := by
    rw [List.find?_eq_none]
    intro q hq
    simp [HostRecord.done_iff.mpr (ho q hq)]
  rw [HostPort.head?, h, List.find?_append, hnone, Option.none_or, List.find?_cons_of_pos (by simp [HostRecord.done_eq_false hr])]

theorem State.finishBeat_first {older newer : List HostRecord} {r : HostRecord} (h : s.host.requests = older ++ r :: newer)
    (ho : ∀ q ∈ older, q.length ≤ q.outcomes.length) (hr : r.outcomes.length < r.length) (o : BeatOutcome) :
    s.finishBeat o = { s with host := { s.host with
      requests := older ++ { r with outcomes := r.outcomes ++ [o] } :: newer, action := none } } := by
  rw [State.finishBeat, h, modifyFirst_first]
  · intro q hq
    simp [HostRecord.done_iff.mpr (ho q hq)]
  · simp [HostRecord.done_eq_false hr]

/-! ### The window that claims an address (R37) -/

/-- Two windows whose host ranges are apart claim no address together (R25). -/
theorem WindowValues.claims_apart {v w : WindowValues} {a : Nat} (hv : v.claims a = true) (hw : w.claims a = true) :
    v.apart w = false := by
  rw [Bool.eq_false_iff, ne_eq, WindowValues.apart_iff]
  simp only [WindowValues.claims, Bool.and_eq_true, decide_eq_true_eq] at hv hw
  omega

/-- The windows in use are apart, so one window at most claims an address. -/
theorem TableSound.claims_unique (hs : TableSound s) {n m : Fin 8} {v w : WindowValues} {a : Nat}
    (hn : (s.window n).values? = some v) (hv : v.claims a = true) (hm : (s.window m).values? = some w) (hw : w.claims a = true) :
    m = n ∧ w = v := by
  obtain ⟨_, hapart, _⟩ := hs
  have hnm : m = n := by
    by_contra hne
    have := hapart n m (Ne.symm hne) v hn w hm
    rw [WindowValues.claims_apart hv hw] at this
    cases this
  subst hnm
  exact ⟨rfl, Option.some.inj (hm.symm.trans hn)⟩

theorem Window.values?_of_active? {w : Window} {v : WindowValues} (h : w.active? = some v) : w.values? = some v := by
  rw [Window.active?_eq_some.mp h]
  rfl

theorem Window.draining?_eq_some {w : Window} {v : WindowValues} : w.draining? = some v ↔ w = .draining v := by
  cases w <;> simp [Window.draining?]

theorem Window.values?_of_draining? {w : Window} {v : WindowValues} (h : w.draining? = some v) : w.values? = some v := by
  rw [Window.draining?_eq_some.mp h]
  rfl

/-- The window found is the one that claims the address. -/
theorem Table.claiming_eq (hs : TableSound s) {f : Window → Option WindowValues} (hf : ∀ w v, f w = some v → w.values? = some v)
    {n : Fin 8} {v : WindowValues} {a : Nat} (hn : f (s.window n) = some v) (hv : v.claims a = true) :
    s.table.claiming f a = some (n, v) := by
  cases hc : s.table.claiming f a with
  | none =>
    have := Table.claiming_none.mp hc n v hn
    rw [hv] at this
    cases this
  | some p =>
    obtain ⟨m, w⟩ := p
    obtain ⟨hm, hw⟩ := Table.claiming_some hc
    obtain ⟨rfl, rfl⟩ := hs.claims_unique (hf _ _ hn) hv (hf _ _ hm) hw
    rfl

theorem State.decode_active (hs : TableSound s) {n : Fin 8} {v : WindowValues} {a : Nat} (hn : s.window n = .active v)
    (hv : v.claims a = true) (kind : RequestKind) : s.decode kind a = decodeIn n v kind a := by
  rw [State.decode, Table.claiming_eq hs (fun _ _ => Window.values?_of_active?) (Window.active?_eq_some.mpr hn) hv]

theorem State.decode_draining (hs : TableSound s) {n : Fin 8} {v : WindowValues} {a : Nat} (hn : s.window n = .draining v)
    (hv : v.claims a = true) (kind : RequestKind) : s.decode kind a = .refused .draining (some n) := by
  have hactive : s.table.claiming Window.active? a = none := by
    refine Table.claiming_none.mpr fun m w hm => Bool.eq_false_iff.mpr fun hw => ?_
    obtain ⟨rfl, rfl⟩ := hs.claims_unique (by rw [hn]; rfl) hv (Window.values?_of_active? hm) hw
    have : (s.window m).active? = some w := hm
    rw [hn] at this
    cases this
  rw [State.decode, hactive, Table.claiming_eq hs (fun _ _ => Window.values?_of_draining?) (Window.draining?_eq_some.mpr hn) hv]

theorem State.decode_unclaimed {a : Nat} (h : ∀ n, ∀ v ∈ (s.window n).values?, v.claims a = false) (kind : RequestKind) :
    s.decode kind a = if a < s.port.memSize.bytes then .bypass else .refused .outOfMemory none := by
  have none_of {f : Window → Option WindowValues} (hf : ∀ w v, f w = some v → w.values? = some v) :
      s.table.claiming f a = none := Table.claiming_none.mpr fun n v hv => h n v (hf _ _ hv)
  rw [State.decode, none_of fun _ _ => Window.values?_of_active?, none_of fun _ _ => Window.values?_of_draining?]

/-! ### The decode of a window beat (R38, R39) -/

section Window

variable {n : Fin 8} {v : WindowValues} {kind : RequestKind} {a : Nat}

theorem decodeIn_readOnly (hk : kind = .write) (hv : v.access = .readOnly) :
    decodeIn n v kind a = .refused .readOnly (some n) := if_pos ⟨hv, hk⟩

theorem decodeIn_writeOnly (hk : kind = .read) (hv : v.access = .writeOnly) :
    decodeIn n v kind a = .refused .writeOnly (some n) := by
  rw [decodeIn, if_neg (by simp [hv]), if_pos ⟨hv, hk⟩]

theorem decodeIn_allowed (hw : kind = .write → v.access ≠ .readOnly) (hr : kind = .read → v.access ≠ .writeOnly) :
    decodeIn n v kind a = if v.pixelBytes ≤ a - v.hostBase then .slack
      else .pixels ⟨n, v, (a - v.hostBase) / v.hostFormat.bytes % v.width, (a - v.hostBase) / v.hostFormat.bytes / v.width⟩ := by
  rw [decodeIn, if_neg fun h => hw h.2 h.1, if_neg fun h => hr h.2 h.1]

end Window

/-- A bypass write hands over no lanes exactly with no byte enabled (R40, R154). -/
theorem bypassLanes_eq_nil {a : Nat} {b : WriteBeat} : bypassLanes a b = [] ↔ b.enables = 0 := by
  rw [bypassLanes, List.filterMap_eq_nil_iff]
  generalize b.enables = m
  simp only [List.mem_finRange, forall_const, ite_eq_right_iff, reduceCtorEq, imp_false, Bool.not_eq_true]
  revert m
  decide

/-! ### The beat of the head request -/

theorem exec_beatDecode {r : HostRecord} (hp : s.host.state ≠ .held) (ha : s.host.action = none) (hr : s.host.head? = some r) :
    exec .beatDecode s = .next ((s.decodeBeat r).1.goesOn (s.decodeBeat r).2) := by
  show execBeatDecode s = _
  rw [execBeatDecode, if_neg (by simp [hp, ha]), hr]
  exact congrArg Host.Outcome.next (State.settle_eq_goesOn ..)

/-- Settles O45. -/
theorem beatDecodeOutcomes : Obligations.BeatDecodeOutcomes := by
  refine ⟨fun s older r newer h ho hr => ⟨HostPort.head?_first h ho hr, State.finishBeat_first h ho hr⟩,
    fun s r hs hport haction hhead => ?_⟩
  intro a b acting done refuse act
  have read {d : Decoded} (hk : r.kind = .read) (hd : s.decode .read a = d) :
      exec .beatDecode s = .next ((s.carryRead d a).1.goesOn (s.carryRead d a).2) := by
    rw [exec_beatDecode hport haction hhead, State.decodeBeat, hk, ← hd]
  have write {d : Decoded} (hk : r.kind = .write) (hd : s.decode .write a = d) :
      exec .beatDecode s = .next ((s.carryWrite d a b).1.goesOn (s.carryWrite d a b).2) := by
    rw [exec_beatDecode hport haction hhead, State.decodeBeat, hk, ← hd]
  have refused {why : RefuseReason} {w : Option (Fin 8)} (hd : s.decode r.kind a = .refused why w) :
      exec .beatDecode s = .next (refuse why w) := by
    cases hk : r.kind with
    | read => exact read hk (hk ▸ hd)
    | write => exact write hk (hk ▸ hd)
  refine ⟨fun hd hslot => ⟨fun o => ?_, fun why n => ?_, fun c words => ?_, fun c lanes run => ?_⟩, fun n v hn hv => ?_,
    fun hn => ⟨fun hm => ?_, fun hm => ⟨fun hk => ?_, fun hk hb => ?_, fun hk hb => ?_⟩⟩, fun n v hn hv => ?_⟩
  · exact State.goesOn_calm (t := s.finishBeat o) hd hslot rfl rfl []
  · exact State.goesOn_calm (t := s.finishBeat ⟨true, 0⟩) hd hslot rfl rfl [_]
  · exact State.goesOn_calm (t := acting (.read c words [])) hd hslot rfl rfl []
  · exact State.goesOn_free (s := acting (.write c lanes run)) hslot []
  · exact refused (State.decode_draining hs hn hv _)
  · exact refused ((State.decode_unclaimed hn _).trans (if_neg (Nat.not_lt.mpr hm)))
  · exact read hk ((State.decode_unclaimed hn _).trans (if_pos hm))
  · rw [write hk ((State.decode_unclaimed hn _).trans (if_pos hm))]
    simp only [State.carryWrite, State.handOver, bypassLanes_eq_nil.mpr hb]
    rfl
  · rw [write hk ((State.decode_unclaimed hn _).trans (if_pos hm))]
    have hlanes : (bypassLanes a b).isEmpty = false := by simpa [bypassLanes_eq_nil] using hb
    simp only [State.carryWrite, State.handOver, hlanes]
    rfl
  · intro o c
    have hdec := State.decode_active hs hn hv
    refine ⟨fun hk hacc => refused ?_, fun hk hacc => refused ?_, fun hw hr => ⟨fun ho => ?_, fun ho => ?_⟩⟩
    · rw [hdec, decodeIn_readOnly hk hacc]
    · rw [hdec, decodeIn_writeOnly hk hacc]
    · have hslack : s.decode r.kind a = .slack := (hdec _).trans ((decodeIn_allowed hw hr).trans (if_pos ho))
      cases hk : r.kind with
      | read => exact read hk (hk ▸ hslack)
      | write => exact write hk (hk ▸ hslack)
    · have hpixels : s.decode r.kind a = .pixels c :=
        (hdec _).trans ((decodeIn_allowed hw hr).trans (if_neg (Nat.not_le.mpr ho)))
      refine ⟨fun hk => read (d := .pixels c) hk (hk ▸ hpixels), fun hk hb => ?_, fun hk hb hl => ?_, fun hk hb hl => ?_⟩
      · rw [write hk (hk ▸ hpixels)]
        simp only [State.carryWrite, if_pos (show partlyEnabled c.values.hostFormat b.enables = true from hb)]
        rfl
      · rw [write hk (hk ▸ hpixels)]
        simp only [State.carryWrite, show partlyEnabled c.values.hostFormat b.enables = false from hb, State.handOver, hl]
        rfl
      · rw [write hk (hk ▸ hpixels)]
        have hlanes : (c.lanes b).isEmpty = false := by simpa using hl
        simp only [State.carryWrite, show partlyEnabled c.values.hostFormat b.enables = false from hb, State.handOver, hlanes]
        rfl

end Sys2Proof.Machine
end


section
/-!
PROOF. The ends of a memory access (chapter 6): what an answer and a timeout do for their requester, and what the removal of an
entry lets follow.
-/

namespace Sys2Proof.Machine

variable {s t : State}

/-! ### The access ended -/

theorem exec_memoryAnswer_free (md : Word) (h : s.port.access = none) : exec (.memoryAnswer md) s = .next s := by
  show execMemoryAnswer md s = _
  rw [execMemoryAnswer, h]

theorem exec_memoryAnswer {a : Access} (md : Word) (h : s.port.access = some a) :
    exec (.memoryAnswer md) s = .next (s.freePort.answered a md) := by
  show execMemoryAnswer md s = _
  rw [execMemoryAnswer, h]

theorem exec_accessTimeout_free (h : s.port.access = none) : exec .accessTimeout s = .next s := by
  show execAccessTimeout s = _
  rw [execAccessTimeout, h]

theorem exec_accessTimeout {a : Access} (h : s.port.access = some a) : exec .accessTimeout s = .next (s.freePort.failed a) := by
  show execAccessTimeout s = _
  rw [execAccessTimeout, h]

section Requester

variable {a : Access} {md : Word}

theorem State.answered_abandoned (h : a.abandoned = true) : s.answered a md = s := if_pos h

theorem State.answered_hostRead (h : a.abandoned = false) (hr : a.requester = .hostRead) :
    s.answered a md = s.hostAnswer (s.merge.overlay a.address md) := by
  rw [State.answered, h, if_neg Bool.false_ne_true, hr]

theorem State.answered_stream (h : a.abandoned = false) (hr : a.requester = .stream) :
    s.answered a md = s.streamAnswer (s.merge.overlay a.address md) := by
  rw [State.answered, h, if_neg Bool.false_ne_true, hr]

theorem State.answered_fetch (h : a.abandoned = false) (hr : a.requester = .drain) (hw : a.write = none) :
    s.answered a md = s.fetchAnswer md := by
  rw [State.answered, h, if_neg Bool.false_ne_true, hr, hw]

theorem State.answered_written {w : Word} (h : a.abandoned = false) (hr : a.requester = .drain) (hw : a.write = some w) :
    s.answered a md = s.removeDrain.afterRemoval [] := by
  rw [State.answered, h, if_neg Bool.false_ne_true, hr, hw]

theorem State.failed_abandoned (h : a.abandoned = true) : s.failed a = s := if_pos h

theorem State.failed_hostRead (h : a.abandoned = false) (hr : a.requester = .hostRead) : s.failed a = s.hostReadFails a.address := by
  rw [State.failed, h, if_neg Bool.false_ne_true, hr]

theorem State.failed_drain (h : a.abandoned = false) (hr : a.requester = .drain) : s.failed a = s.drainFails a.write.isSome := by
  rw [State.failed, h, if_neg Bool.false_ne_true, hr]

theorem State.failed_stream (h : a.abandoned = false) (hr : a.requester = .stream) : s.failed a = s.streamFails a.address := by
  rw [State.failed, h, if_neg Bool.false_ne_true, hr]

end Requester

/-! ### Host reads (R134, R152 to R155) -/

/-- A word that is not the beat's last joins those answered. -/
theorem State.hostAnswer_more {c : Option Carried} {words : List Nat} {got : List Word} (w : Word)
    (h : s.host.action = some (.read c words got)) (hl : got.length + 1 < words.length) :
    s.hostAnswer w = s.setAction (.read c words (got ++ [w])) := by
  simp only [State.hostAnswer, h, List.length_append, List.length_singleton, if_neg (Nat.not_le.mpr hl)]

/-- The last word of a window beat gives its data. -/
theorem State.hostAnswer_window {c : Carried} {words : List Nat} {got : List Word} (w : Word)
    (h : s.host.action = some (.read (some c) words got)) (hl : words.length = got.length + 1) :
    s.hostAnswer w = (s.finishBeat ⟨false, c.data (words.zip (got ++ [w]))⟩).goesOn [] := by
  simp only [State.hostAnswer, h, List.length_append, List.length_singleton, if_pos hl.le, State.settle_eq_goesOn]

/-- The word of a bypass beat is its data. -/
theorem State.hostAnswer_bypass {a : Nat} (w : Word) (h : s.host.action = some (.read none [a] [])) :
    s.hostAnswer w = (s.finishBeat ⟨false, w⟩).goesOn [] := by
  simp only [State.hostAnswer, h, List.nil_append, List.length_singleton, le_rfl, if_true, List.headD_cons,
    State.settle_eq_goesOn]

theorem State.hostReadFails_eq {c : Option Carried} {words : List Nat} {got : List Word} (address : Nat)
    (h : s.host.action = some (.read c words got)) : s.hostReadFails address
      = (s.finishBeat ⟨true, 0⟩).goesOn [.hostReadTimeout (c.map Carried.window) address] := by
  simp only [State.hostReadFails, State.beatWindow, h, State.settle_eq_goesOn]

/-! ### Stream reads (R103, R112, R136) -/

section Stream

variable {r : Region} {v : WindowValues}

theorem State.streamAnswer_more (w : Word) (h : s.streamer.region = some r) (hv : (s.window r.window).values? = some v)
    (hl : r.words.length + 1 < (v.pixelWords (r.rect.pixelX r.nextRead) (r.rect.pixelY r.nextRead)).length) :
    s.streamAnswer w = { s with streamer := { s.streamer with region := some { r with words := r.words ++ [w] } } } := by
  have hv : s.regionValues? r = some v := hv
  simp only [State.streamAnswer, h, hv, List.length_append, List.length_singleton, if_neg (Nat.not_le.mpr hl)]

theorem State.streamAnswer_last (w : Word) (h : s.streamer.region = some r) (hv : (s.window r.window).values? = some v)
    (hl : (v.pixelWords (r.rect.pixelX r.nextRead) (r.rect.pixelY r.nextRead)).length = r.words.length + 1) :
    s.streamAnswer w = { s with streamer := { s.streamer with region := some { r with
      words := [], nextRead := r.nextRead + 1
      ready := r.ready ++ [toPanel v s.streamer.panelFormat
        (v.pixelFrom ((v.pixelWords (r.rect.pixelX r.nextRead) (r.rect.pixelY r.nextRead)).zip (r.words ++ [w]))
          (r.rect.pixelX r.nextRead) (r.rect.pixelY r.nextRead))] } } } := by
  have hv : s.regionValues? r = some v := hv
  simp only [State.streamAnswer, h, hv, List.length_append, List.length_singleton, if_pos hl.le]

/-- A STREAM read that failed on a free port. -/
theorem State.streamFails_eq (address : Nat) (h : s.streamer.region = some r) (hp : s.port.access = none) :
    s.streamFails address = State.post { s with
      damage := { s.damage with records := s.damage.records.map fun q => { q with state := .pending } }
      streamer := { s.streamer with state := .stalled, passOpen := false, region := none, answerTimer := none }
      link := { s.link with abortsOwed := s.link.abortsOwed + 1 }
      port := { s.port with access := none, streamWait := 0 } } (.streamTimeout r.window address) := by
  simp only [State.streamFails, h, State.abortRegion, hp, Option.map_none]
  rfl

end Stream

/-! ### Drain accesses (R58, R60 to R62, R135) -/

theorem State.drainFails_first {e : Entry} (write : Bool) (h : s.merge.drain? = some e) (hr : e.retryUsed = false) :
    s.drainFails write = { s with merge := s.merge.onDrain fun _ => e.firstTimeout } := by
  have : s.merge.onDrain Entry.firstTimeout = s.merge.onDrain fun _ => e.firstTimeout := by
    rw [MergeQueue.onDrain, modifyFirst_const h]
    rfl
  simp only [State.drainFails, h, hr, this, if_neg Bool.false_ne_true]

/-- A removal, and what it brings about. -/
theorem State.removeDrain_afterRemoval {e : Entry} (h : s.merge.drain? = some e) (es : List Event) :
    s.removeDrain.afterRemoval es = (s.withoutDrain e.word).removalGoesOn es := by
  rw [State.afterRemoval_eq, State.removeDrain_eq_withoutDrain h]

theorem State.drainFails_lost {e : Entry} (write : Bool) (h : s.merge.drain? = some e) (hr : e.retryUsed = true) :
    s.drainFails write = (s.withoutDrain e.word).removalGoesOn [.drainTimeout write e.creator e.word] := by
  rw [← State.removeDrain_afterRemoval h]
  simp only [State.drainFails, h, hr, if_true]

/-- The queue without the drain entry. -/
def State.drainLeft (s : State) : State := { s with merge := { s.merge with entries := s.merge.entries.eraseP Entry.draining } }

/-- The word removed leaves the wait set of a FLUSH (R66). -/
theorem State.withoutDrain_flush {sel : Option (Fin 8)} {ws : List Nat} (h : s.mgmt.slot = some (.flush sel ws)) (word : Nat) :
    s.withoutDrain word = s.drainLeft.setSlot (some (.flush sel (ws.filter fun b => b != word))) := by
  simp only [State.withoutDrain, h]
  rfl

/-- Any other occupant of the slot stays. -/
theorem State.withoutDrain_other (h : ∀ sel ws, s.mgmt.slot ≠ some (.flush sel ws)) (word : Nat) :
    s.withoutDrain word = s.drainLeft := by
  have hm (o : Option LongOp) (ho : s.mgmt.slot = o) : { s.mgmt with slot := o } = s.mgmt := by rw [← ho]
  unfold State.withoutDrain
  rcases hs : s.mgmt.slot with _ | (n | ⟨sel, ws⟩ | n | n | p)
  · exact congrArg (fun m => { s.drainLeft with mgmt := m }) (hm _ hs)
  · exact congrArg (fun m => { s.drainLeft with mgmt := m }) (hm _ hs)
  · exact absurd hs (h sel ws)
  · exact congrArg (fun m => { s.drainLeft with mgmt := m }) (hm _ hs)
  · exact congrArg (fun m => { s.drainLeft with mgmt := m }) (hm _ hs)
  · exact congrArg (fun m => { s.drainLeft with mgmt := m }) (hm _ hs)

/-! ### What a removal lets follow (R49, R50, R60) -/

section Removal

variable {es : List Event} {c : Creator} {lanes : List LaneWrite} {run : Option (Carried × Rect)}

theorem State.removalGoesOn_none (h : s.host.action = none) : s.removalGoesOn es = s.goesOn es := by
  simp only [State.removalGoesOn, h]

theorem State.removalGoesOn_waits (h : s.host.action = some (.write c lanes run)) (hc : s.merge.canTake lanes = false) :
    s.removalGoesOn es = s.goesOn es := by
  simp only [State.removalGoesOn, h, hc, if_neg Bool.false_ne_true]

theorem State.removalGoesOn_taken (h : s.host.action = some (.write c lanes run)) (hc : s.merge.canTake lanes = true) :
    s.removalGoesOn es = (s.beatTaken c lanes run).goesOn (es ++ s.beatEvents run) := by
  simp only [State.removalGoesOn, h, hc, if_true]

/-- A removal with an empty slot and no write beat waiting. -/
theorem State.withoutDrain_free (hs : s.mgmt.slot = none) (ha : s.host.action = none) (word : Nat) :
    (s.withoutDrain word).removalGoesOn es = (s.drainLeft.postTogether es).chooseDrain := by
  rw [State.withoutDrain_other (by simp [hs]), State.removalGoesOn_none (s := s.drainLeft) ha, State.goesOn_free (s := s.drainLeft) hs]

/-- A beat whose lanes insert no damage, taken with an empty slot (R77, R151). -/
theorem State.beatTaken_noDamage (hs : s.mgmt.slot = none) (hd : s.beatDamage run = none) :
    (s.beatTaken c lanes run).goesOn (s.beatEvents run) = State.chooseDrain (State.finishBeat
      { s with merge := s.merge.takeSet c (s.marksNew c) (s.port.serves .drain) lanes } ⟨false, 0⟩) := by
  rw [State.goesOn_free ((State.beatTaken_mgmt ..).symm ▸ hs)]
  simp only [State.beatTaken, State.beatEvents, hd]
  rfl

/-- A beat whose lanes insert damage, taken with an empty slot (R77, R83, R151). -/
theorem State.beatTaken_damage {w : Fin 8} {q : Rect} (hs : s.mgmt.slot = none) (hd : s.beatDamage run = some (w, q)) :
    (s.beatTaken c lanes run).goesOn (s.beatEvents run) = State.chooseDrain (State.finishBeat (State.takeIfIdle
      (State.insertDamage { s with merge := s.merge.takeSet c (s.marksNew c) (s.port.serves .drain) lanes } w q)) ⟨false, 0⟩) := by
  rw [State.goesOn_free ((State.beatTaken_mgmt ..).symm ▸ hs), State.insertDamage_takeIfIdle]
  simp only [State.beatTaken, State.beatEvents, hd, State.collapseEvent]
  cases (s.damage.insert w q).2 <;> rfl

end Removal

/-- Settles O47. -/
theorem memoryAnswerOutcomes : Obligations.MemoryAnswerOutcomes := by
  refine fun s md => ⟨exec_memoryAnswer_free md, fun a ha => ?_⟩
  intro free word
  have answered {u : State} (h : free.answered a md = u) : exec (.memoryAnswer md) s = .next u :=
    (exec_memoryAnswer md ha).trans (congrArg Host.Outcome.next h)
  refine ⟨fun h => answered (State.answered_abandoned h), fun h => ⟨fun got hr hact hgot => ?_, fun c words got hr hact =>
    ⟨fun hl => ?_, fun hl => ?_, fun hl hs hd => ?_⟩, fun e hr hw he => ?_, fun e w hr hw he hs hact => ?_,
    fun e w hr hw he => ?_, fun r v hr hreg hv => ?_⟩⟩
  · subst hgot
    have hbeat := answered ((State.answered_hostRead h hr).trans (State.hostAnswer_bypass (s := free) word hact))
    refine ⟨hbeat, fun hs hd => hbeat.trans (congrArg Host.Outcome.next ?_)⟩
    exact State.goesOn_calm (t := free.finishBeat _) hd hs rfl rfl []
  · exact answered ((State.answered_hostRead h hr).trans (State.hostAnswer_more (s := free) word hact hl))
  · exact answered ((State.answered_hostRead h hr).trans (State.hostAnswer_window (s := free) word hact hl))
  · refine (answered ((State.answered_hostRead h hr).trans (State.hostAnswer_window (s := free) word hact hl))).trans
      (congrArg Host.Outcome.next ?_)
    exact State.goesOn_calm (t := free.finishBeat _) hd hs rfl rfl []
  · refine ⟨e.fetchAnswer md, answered ((State.answered_fetch h hr hw).trans ?_), rfl, e.lanes.fill_get md⟩
    rw [State.fetchAnswer, MergeQueue.onDrain, modifyFirst_const (show free.merge.entries.find? Entry.draining = some e from he)]
  · exact answered ((State.answered_written h hr hw).trans
      ((State.removeDrain_afterRemoval (s := free) he []).trans (State.withoutDrain_free (s := free) hs hact _)))
  · exact answered ((State.answered_written h hr hw).trans (State.removeDrain_afterRemoval (s := free) he []))
  · exact ⟨fun hl => answered ((State.answered_stream h hr).trans (State.streamAnswer_more (s := free) word hreg hv hl)),
      fun hl => answered ((State.answered_stream h hr).trans (State.streamAnswer_last (s := free) word hreg hv hl))⟩

/-- Settles O48. -/
theorem accessTimeoutOutcomes : Obligations.AccessTimeoutOutcomes := by
  refine fun s => ⟨exec_accessTimeout_free, fun a ha => ?_⟩
  intro free
  have failed {u : State} (h : free.failed a = u) : exec .accessTimeout s = .next u :=
    (exec_accessTimeout ha).trans (congrArg Host.Outcome.next h)
  refine ⟨fun h => failed (State.failed_abandoned h), fun h => ⟨fun c words got hr hact hs hd => ?_, fun c words got hr hact => ?_,
    fun e hr he hretry => ?_, fun e hr he hretry hs hact => ?_, fun e hr he hretry => ?_, fun r hr hreg => ?_⟩⟩
  · refine (failed ((State.failed_hostRead h hr).trans (State.hostReadFails_eq (s := free) _ hact))).trans
      (congrArg Host.Outcome.next ?_)
    exact State.goesOn_calm (t := free.finishBeat _) hd hs rfl rfl [_]
  · exact failed ((State.failed_hostRead h hr).trans (State.hostReadFails_eq (s := free) _ hact))
  · refine failed ((State.failed_drain h hr).trans ((State.drainFails_first (s := free) _ he hretry).trans ?_))
    simp only [Entry.firstTimeout, MergeQueue.onDrain, Bool.and_eq_true, beq_iff_eq]
    rfl
  · exact failed ((State.failed_drain h hr).trans
      ((State.drainFails_lost (s := free) _ he hretry).trans (State.withoutDrain_free (s := free) hs hact _)))
  · exact failed ((State.failed_drain h hr).trans (State.drainFails_lost (s := free) _ he hretry))
  · exact failed ((State.failed_stream h hr).trans (State.streamFails_eq (s := free) _ hreg rfl))

/-- Settles O49. -/
theorem retirementServesWaiters : Obligations.RetirementServesWaiters := by
  intro s md a e w ha hab hr hw he left free
  have written {u : State} (h : (free.withoutDrain e.word).removalGoesOn [] = u) : exec (.memoryAnswer md) s = .next u :=
    (exec_memoryAnswer md ha).trans (congrArg Host.Outcome.next ((State.answered_written hab hr hw).trans
      ((State.removeDrain_afterRemoval (s := free) he []).trans h)))
  have other (hs : ∀ sel ws, s.mgmt.slot ≠ some (.flush sel ws)) :
      free.withoutDrain e.word = free.drainLeft := State.withoutDrain_other (s := free) hs _
  refine ⟨fun sel ws hs hact => ?_, fun n hs hact => ?_, fun n lanes run hs hact hc => ?_, fun lanes hs hact hc => ?_,
    fun c lanes d r hs hact hc => ?_⟩
  · intro kept
    have hflush := State.withoutDrain_flush (s := free) hs e.word
    have hgoes : (free.withoutDrain e.word).removalGoesOn []
        = (free.drainLeft.setSlot (some (.flush sel kept))).settle [] := by
      rw [hflush, State.removalGoesOn_none (s := free.drainLeft.setSlot _) hact, State.settle_eq_goesOn]
    refine ⟨fun hk => written (hgoes.trans ?_), fun hk => written (hgoes.trans ?_)⟩
    · obtain ⟨x, xs, hx⟩ := List.exists_cons_of_ne_nil hk
      rw [hx]
      exact State.settle_flush_waits rfl
    · rw [hk]
      exact State.settle_flush_done rfl
  · have hgoes : (free.withoutDrain e.word).removalGoesOn [] = free.drainLeft.settle [] := by
      rw [other (by simp [hs]), State.removalGoesOn_none (s := free.drainLeft) hact, State.settle_eq_goesOn]
    have hquiet : free.drainLeft.host.writeBeatOf n = false := by
      show s.host.writeBeatOf n = false
      rw [HostPort.writeBeatOf, hact]
    refine ⟨fun ⟨f, hf, hc⟩ => written (hgoes.trans ?_), fun hall => written (hgoes.trans ?_)⟩
    · refine State.settle_close_waits (s := free.drainLeft) hs ?_
      rw [State.drainComplete, Bool.and_eq_false_iff, List.all_eq_false]
      exact .inl ⟨f, hf, by simp [hc]⟩
    · refine State.settle_close_done (s := free.drainLeft) hs ?_
      rw [State.drainComplete, hquiet, Bool.and_eq_true, List.all_eq_true]
      exact ⟨fun f hf => by simpa using hall f hf, rfl⟩
  · have hno : ∀ sel ws, s.mgmt.slot ≠ some (.flush sel ws) := by rcases hs with hs | hs <;> simp [hs]
    refine written ?_
    rw [other hno, State.removalGoesOn_waits (s := free.drainLeft) hact hc]
    rcases hs with hs | hs
    · exact State.goesOn_free (s := free.drainLeft) hs []
    · rw [← State.settle_eq_goesOn]
      refine State.settle_close_waits (s := free.drainLeft) hs ?_
      have hbeat : free.drainLeft.host.writeBeatOf n = true := by
        show s.host.writeBeatOf n = true
        rw [HostPort.writeBeatOf, hact]
        exact beq_self_eq_true _
      rw [State.drainComplete, hbeat]
      exact Bool.and_false _
  · refine written ?_
    rw [other (by simp [hs]), State.removalGoesOn_taken (s := free.drainLeft) hact hc]
    exact State.beatTaken_noDamage (s := free.drainLeft) hs rfl
  · intro taken
    have hgoes : (free.withoutDrain e.word).removalGoesOn []
        = (free.drainLeft.beatTaken c lanes (some (d, r))).goesOn (free.drainLeft.beatEvents (some (d, r))) := by
      rw [other (by simp [hs]), State.removalGoesOn_taken (s := free.drainLeft) hact hc]
      rfl
    have inserted {q : Rect} (hq : s.beatDamage (some (d, r)) = some (d.window, q)) := written (hgoes.trans
      (State.beatTaken_damage (s := free.drainLeft) hs hq))
    refine ⟨fun v hv htr hy => inserted ?_, fun v hv htr hy => inserted ?_, fun hno => written (hgoes.trans
      (State.beatTaken_noDamage (s := free.drainLeft) hs ?_))⟩
    · simp only [State.beatDamage, hv, htr, hy, if_true, Bool.true_eq_false, if_false]
    · simp only [State.beatDamage, hv, htr, if_neg hy, Bool.true_eq_false, if_false]
    · show s.beatDamage (some (d, r)) = none
      cases hw : s.window d.window with
      | active v => simp only [State.beatDamage, hw, hno v hw, if_true]
      | unused => simp only [State.beatDamage, hw]
      | draining v => simp only [State.beatDamage, hw]

end Sys2Proof.Machine
end


section
/-!
PROOF. ARBITER_GRANT (chapter 6): what each requester presents, the grant order, and an address at or above the memory size.
-/

namespace Sys2Proof.Machine

variable {s t : State}

/-! ### What each requester presents (R103, R131) -/

/-- A requester presents nothing while an access of its own is in flight, unless that one is abandoned. -/
theorem MemoryPort.serves_eq_false {p : MemoryPort} {r : Requester} :
    p.serves r = false ↔ ∀ x, p.access = some x → x.requester = r → x.abandoned = true := by
  rw [Bool.eq_false_iff, ne_eq, MemoryPort.serves_iff]
  refine ⟨fun h x hx hr => ?_, fun h ⟨x, hx, hr, ha⟩ => ?_⟩
  · by_contra hn
    exact h ⟨x, hx, hr, by simpa using hn⟩
  · rw [h x hx hr] at ha
    cases ha

theorem State.hostRequest?_iff {a : Nat} : s.hostRequest? = some a ↔ s.port.serves .hostRead = false
    ∧ ∃ c words got, s.host.action = some (.read c words got) ∧ words[got.length]? = some a := by
  unfold State.hostRequest?
  cases s.port.serves .hostRead with
  | true => simp
  | false =>
    rcases s.host.action with _ | (⟨c, l, r⟩ | ⟨c, words, got⟩)
    · simp
    · simp
    · simp [and_assoc]

/-- The lanes of a word are the word. -/
theorem word_ext {u w : Word} (h : ∀ n, laneOf u n = laneOf w n) : u = w := by
  refine BitVec.eq_of_getLsbD_eq fun i hi => ?_
  have hbit := congrArg (fun x : Nibble => x.getLsbD (i % 4)) (h ⟨i / 4, by omega⟩)
  have hmod : i % 4 < 4 := Nat.mod_lt _ (by decide)
  have hsum : 4 * (i / 4) + i % 4 = i := Nat.div_add_mod i 4
  simpa [laneOf, hmod, hsum] using hbit

theorem Lanes.word_unique {l : Lanes} {w : Word} : w = l.word ↔ ∀ n : Fin 8, laneOf w n = (l[n]).getD 0 := by
  refine ⟨fun h n => ?_, fun h => word_ext fun n => ?_⟩
  · rw [h, laneOf_word]
  · rw [h n, laneOf_word]

theorem State.drainRequest?_iff {a : Nat} {w : Option Word} : s.drainRequest? = some (a, w) ↔ s.port.serves .drain = false
    ∧ ∃ e, s.merge.drain? = some e ∧ a = e.word
      ∧ ((e.state = .fetching ∧ w = none) ∨ (e.state ≠ .fetching ∧ w = some e.lanes.word)) := by
  unfold State.drainRequest?
  cases s.port.serves .drain with
  | true => simp
  | false =>
    cases hd : s.merge.drain? with
    | none => simp
    | some e =>
      have hdrain : e.draining = true := List.find?_some hd
      cases he : e.state with
      | collecting => simp [Entry.draining, he] at hdrain
      | fetching | pendingWrite | writing => simp [he, eq_comm]

theorem State.streamRequest?_iff {a : Nat} : s.streamRequest? = some a ↔ s.port.serves .stream = false
    ∧ s.streamer.state = .sending ∧ ∃ r v, s.streamer.region = some r ∧ (s.window r.window).values? = some v
      ∧ r.nextRead < r.rect.pixels ∧ r.nextRead < r.sent + 2
      ∧ (v.pixelWords (r.rect.pixelX r.nextRead) (r.rect.pixelY r.nextRead))[r.words.length]? = some a := by
  have hwords (r : Region) : (s.regionWords r)[r.words.length]? = some a ↔ ∃ v, (s.window r.window).values? = some v
      ∧ (v.pixelWords (r.rect.pixelX r.nextRead) (r.rect.pixelY r.nextRead))[r.words.length]? = some a := by
    have hvalues : s.regionValues? r = (s.window r.window).values? := rfl
    rw [State.regionWords, hvalues]
    cases (s.window r.window).values? <;> simp
  have hread (r : Region) : (r.nextRead < r.rect.pixels ∧ r.nextRead ≤ r.sent + 1) ∧ (s.regionWords r)[r.words.length]? = some a
      ↔ ∃ v, (s.window r.window).values? = some v ∧ r.nextRead < r.rect.pixels ∧ r.nextRead < r.sent + 2
        ∧ (v.pixelWords (r.rect.pixelX r.nextRead) (r.rect.pixelY r.nextRead))[r.words.length]? = some a := by
    rw [hwords]
    constructor
    · rintro ⟨⟨h1, h2⟩, v, hv, hw⟩
      exact ⟨v, hv, h1, by omega, hw⟩
    · rintro ⟨v, hv, h1, h2, hw⟩
      exact ⟨⟨h1, by omega⟩, v, hv, hw⟩
  unfold State.streamRequest?
  cases s.port.serves .stream with
  | true => simp
  | false =>
    by_cases hs : s.streamer.state = .sending
    · cases s.streamer.region with
      | none => simp [hs]
      | some r => simp [hs, hread]
    · simp [hs]

theorem State.loadApplying_iff : s.loadApplying = true ↔ ∃ kind image, s.store.load = some ⟨kind, .applying image⟩ := by
  unfold State.loadApplying
  rcases s.store.load with _ | ⟨kind, n | image⟩ <;> simp

/-! ### The grant order (R132) -/

section Order

variable {a : Nat} {w : Option Word}

theorem State.grantChoice_stream (hs : s.streamRequest? = some a)
    (h : 8 ≤ s.port.streamWait ∨ s.hostRequest? = none ∧ (s.urgent = true → s.drainRequest? = none)) :
    s.grantChoice = some ⟨.stream, a, none⟩ := by
  by_cases hg : 8 ≤ s.port.streamWait
  · simp [State.grantChoice, hs, hg, Config.streamGuard]
  · obtain ⟨hh, hd⟩ := h.resolve_left hg
    cases hu : s.urgent with
    | true => simp [State.grantChoice, hs, hg, Config.streamGuard, hh, hu, hd hu]
    | false => simp [State.grantChoice, hs, hg, Config.streamGuard, hh, hu]

/-- A STREAM request below a stream wait count of 8 does not come before the others. -/
theorem State.guard_clear (h : s.streamRequest? = none ∨ s.port.streamWait < 8) : (if Config.streamGuard ≤ s.port.streamWait then
    s.streamRequest?.map fun a => Grant.mk .stream a none else none) = none := by
  rcases h with h | h
  · simp [h]
  · rw [if_neg (Nat.not_le.mpr h)]

theorem State.grantChoice_drain (hd : s.drainRequest? = some (a, w))
    (h : s.urgent = true ∧ (s.streamRequest? = none ∨ s.port.streamWait < 8)
      ∨ s.urgent = false ∧ s.hostRequest? = none ∧ s.streamRequest? = none) : s.grantChoice = some ⟨.drain, a, w⟩ := by
  rcases h with ⟨hu, hs⟩ | ⟨hu, hh, hs⟩
  · simp only [State.grantChoice, State.guard_clear hs, hd, hu]
    rfl
  · simp [State.grantChoice, hd, hu, hh, hs]

theorem State.grantChoice_host (hh : s.hostRequest? = some a) (hs : s.streamRequest? = none ∨ s.port.streamWait < 8)
    (hd : s.urgent = true → s.drainRequest? = none) : s.grantChoice = some ⟨.hostRead, a, none⟩ := by
  simp only [State.grantChoice, State.guard_clear hs, hh]
  cases hu : s.urgent with
  | true => simp [hd hu]
  | false => simp

theorem State.grantChoice_nothing (hh : s.hostRequest? = none) (hs : s.streamRequest? = none) (hd : s.drainRequest? = none) :
    s.grantChoice = none := by
  simp [State.grantChoice, hh, hs, hd]

end Order

theorem exec_arbiterGrant_barred (h : s.port.access.isSome ∨ s.loadApplying = true) : exec .arbiterGrant s = .next s :=
  congrArg Host.Outcome.next (if_pos h)

theorem exec_arbiterGrant_none (h : s.grantChoice = none) : exec .arbiterGrant s = .next s := by
  refine congrArg Host.Outcome.next ?_
  simp only [h, ite_self]

theorem exec_arbiterGrant_some {g : Grant} (hp : s.port.access = none) (hl : s.loadApplying = false)
    (h : s.grantChoice = some g) : exec .arbiterGrant s = .next (s.grant g) := by
  refine congrArg Host.Outcome.next ((if_neg (by simp [hp, hl])).trans ?_)
  simp only [h]

/-! ### Grants (R130) -/

/-- The stream wait count after a grant to a requester, and nothing else (R132). -/
def State.waited (s : State) (r : Requester) : State := { s with port := { s.port with streamWait := s.waitAfter r } }

theorem State.grant_fits {g : Grant} (h : g.address < s.port.memSize.bytes) : s.grant g = s.start g := if_pos h

theorem State.grant_beyond {g : Grant} (h : s.port.memSize.bytes ≤ g.address) : s.grant g
    = (s.start g).freePort.failed ⟨g.requester, g.write, g.address, false, 0, s.port.waitLimit⟩ := if_neg (Nat.not_lt.mpr h)

/-- A read granted and ended at once leaves the stream wait count, and nothing else. -/
theorem State.start_freePort_read {r : Requester} (hp : s.port.access = none) (a : Nat) :
    (s.start ⟨r, a, none⟩).freePort = s.waited r := by
  have hport : { s.port with access := none, streamWait := s.waitAfter r } = { s.port with streamWait := s.waitAfter r } := by
    rw [← hp]
  simp only [State.start, State.freePort, State.waited, Option.isSome_none, Bool.false_eq_true, and_false, if_false, hport]

/-- A write granted and ended at once has made its entry WRITING too. -/
theorem State.start_freePort_write (hp : s.port.access = none) (a : Nat) (w : Word) :
    (s.start ⟨.drain, a, some w⟩).freePort
      = { s.waited .drain with merge := s.merge.onDrain fun e => { e with state := .writing } } := by
  have hport : { s.port with access := none, streamWait := s.waitAfter .drain } = { s.port with streamWait := s.waitAfter .drain } := by
    rw [← hp]
  simp only [State.start, State.freePort, State.waited, Option.isSome_some, and_true, if_true, hport]

/-- A HOST_READ at or above the memory size ends as timed out. -/
theorem State.grant_host_beyond {c : Option Carried} {words : List Nat} {got : List Word} {a : Nat} (hp : s.port.access = none)
    (hact : s.host.action = some (.read c words got)) (h : s.port.memSize.bytes ≤ a) : s.grant ⟨.hostRead, a, none⟩
      = ((s.waited .hostRead).finishBeat ⟨true, 0⟩).goesOn [.hostReadTimeout (c.map Carried.window) a] := by
  rw [State.grant_beyond h, State.start_freePort_read hp, State.failed_hostRead rfl rfl,
    State.hostReadFails_eq (s := s.waited .hostRead) _ hact]

/-- A STREAM read at or above the memory size ends as timed out. -/
theorem State.grant_stream_beyond {r : Region} {a : Nat} (hp : s.port.access = none) (hr : s.streamer.region = some r)
    (h : s.port.memSize.bytes ≤ a) : s.grant ⟨.stream, a, none⟩ = State.post { s with
      damage := { s.damage with records := s.damage.records.map fun q => { q with state := .pending } }
      streamer := { s.streamer with state := .stalled, passOpen := false, region := none, answerTimer := none }
      link := { s.link with abortsOwed := s.link.abortsOwed + 1 }
      port := { s.port with streamWait := 0 } } (.streamTimeout r.window a) := by
  have hport : { s.port with access := none, streamWait := 0 } = { s.port with streamWait := 0 } := by rw [← hp]
  rw [State.grant_beyond h, State.start_freePort_read hp, State.failed_stream rfl rfl,
    State.streamFails_eq (s := s.waited .stream) _ hr hp, ← hport]
  rfl

/-! ### A DRAIN access at or above the memory size (log 27) -/

section Drain

variable {a : Nat} {w : Option Word} {e : Entry} {older newer : List Entry}

/-- The drain entry as the failure of its access finds it: WRITING for a write. -/
def Entry.accessed (e : Entry) (w : Option Word) : Entry := if w.isSome then { e with state := .writing } else e

/-- The state in which a DRAIN access at or above the memory size fails. -/
theorem State.start_freePort_drain (hp : s.port.access = none) (hd : s.drainRequest? = some (a, w))
    (hs : s.merge.entries = older ++ e :: newer) (ho : ∀ f ∈ older, f.draining = false) (he : e.draining = true) :
    (s.start ⟨.drain, a, w⟩).freePort
      = { s.waited .drain with merge := { s.merge with entries := older ++ e.accessed w :: newer } } := by
  cases w with
  | none =>
    rw [State.start_freePort_read hp, Entry.accessed, Option.isSome_none, if_neg Bool.false_ne_true, ← hs]
    rfl
  | some w =>
    rw [State.start_freePort_write hp, MergeQueue.onDrain, hs, modifyFirst_first ho he]
    rfl

theorem Entry.accessed_draining (he : e.draining = true) : (e.accessed w).draining = true := by
  cases w with
  | none => exact he
  | some w => rfl

/-- The entry at the front of the drain is found and left out by its place. -/
theorem drain_first {f : Entry} (ho : ∀ f ∈ older, f.draining = false) (hf : f.draining = true) :
    (older ++ f :: newer).find? Entry.draining = some f ∧ (older ++ f :: newer).eraseP Entry.draining = older ++ newer := by
  have hn : older.find? Entry.draining = none := List.find?_eq_none.mpr fun f hf => by simp [ho f hf]
  refine ⟨by rw [List.find?_append, hn, Option.none_or, List.find?_cons_of_pos hf], ?_⟩
  rw [List.eraseP_append_right _ fun f hf => by simp [ho f hf], List.eraseP_cons_of_pos hf]

/-- What the first timeout makes of the entry: a write is presented again, a fetch gives way to the write where the entry is
complete (R61). -/
theorem Entry.firstTimeout_accessed (h : e.state = .fetching ∧ w = none ∨ e.state ≠ .fetching ∧ w = some e.lanes.word) :
    (e.accessed w).firstTimeout = { e with
      retryUsed := true
      state := if w ≠ none then .writing else if e.complete = true then .pendingWrite else .fetching } := by
  rcases h with ⟨he, rfl⟩ | ⟨_, rfl⟩
  · simp [Entry.accessed, Entry.firstTimeout, he]
  · simp [Entry.accessed, Entry.firstTimeout]

variable (hp : s.port.access = none) (hd : s.drainRequest? = some (a, w)) (h : s.port.memSize.bytes ≤ a)
  (hs : s.merge.entries = older ++ e :: newer) (ho : ∀ f ∈ older, f.draining = false) (he : e.draining = true)

include hp hd h hs ho he

theorem State.grant_drain_first (hr : e.retryUsed = false) : s.grant ⟨.drain, a, w⟩ = { s.waited .drain with
    merge := { s.merge with entries := older ++ { e with
      retryUsed := true
      state := if w ≠ none then .writing else if e.complete = true then .pendingWrite else .fetching } :: newer } } := by
  have hacc := Entry.accessed_draining (w := w) he
  obtain ⟨hfirst, _⟩ := drain_first (newer := newer) ho hacc
  obtain ⟨_, e', he', _, hstate⟩ := State.drainRequest?_iff.mp hd
  obtain rfl : e' = e := by
    have hfind := (drain_first (newer := newer) ho he).1
    rw [← hs] at hfind
    exact Option.some.inj (he'.symm.trans hfind)
  have hretry : (e'.accessed w).retryUsed = false := by
    cases w <;> exact hr
  rw [State.grant_beyond h, State.start_freePort_drain hp hd hs ho he, State.failed_drain rfl rfl]
  refine (State.drainFails_first (s := { s.waited .drain with merge := { s.merge with entries := _ } }) _ hfirst hretry).trans ?_
  rw [MergeQueue.onDrain, modifyFirst_first ho hacc, Entry.firstTimeout_accessed hstate]

theorem State.grant_drain_lost (hr : e.retryUsed = true) : s.grant ⟨.drain, a, w⟩
    = ((s.waited .drain).withoutDrain e.word).removalGoesOn [.drainTimeout (w != none) e.creator e.word] := by
  have hacc := Entry.accessed_draining (w := w) he
  obtain ⟨hfirst, hleft⟩ := drain_first (newer := newer) ho hacc
  have hsame : (e.accessed w).retryUsed = e.retryUsed ∧ (e.accessed w).word = e.word ∧ (e.accessed w).creator = e.creator := by
    cases w <;> exact ⟨rfl, rfl, rfl⟩
  obtain ⟨hretry, hword, hcreator⟩ := hsame
  have hleft' : s.merge.entries.eraseP Entry.draining = older ++ newer := by rw [hs, (drain_first ho he).2]
  have hwrite : w.isSome = (w != none) := by cases w <;> rfl
  rw [State.grant_beyond h, State.start_freePort_drain hp hd hs ho he, State.failed_drain rfl rfl]
  refine (State.drainFails_lost (s := { s.waited .drain with merge := { s.merge with entries := _ } }) _ hfirst
    (hretry.trans hr)).trans ?_
  rw [hword, hcreator, hwrite]
  refine congrArg (fun u => State.removalGoesOn u _) ?_
  simp only [State.withoutDrain, hleft]
  rw [← hleft']
  rfl

end Drain

/-- Settles O46. -/
theorem arbiterGrantOrder : Obligations.ArbiterGrantOrder := by
  refine ⟨fun s a => ?_, fun s => ⟨State.loadApplying_iff, exec_arbiterGrant_barred, fun hp hl => ?_⟩⟩
  · refine ⟨?_, fun w => ?_, ?_⟩
    · rw [State.hostRequest?_iff, MemoryPort.serves_eq_false]
    · rw [State.drainRequest?_iff, MemoryPort.serves_eq_false]
      refine and_congr_right fun _ => exists_congr fun e => and_congr_right fun _ => and_congr_right fun _ =>
        or_congr_right (and_congr_right fun _ => ?_)
      refine ⟨fun hw => ⟨_, hw, fun n => laneOf_word e.lanes n⟩, fun ⟨data, hw, hdata⟩ => ?_⟩
      rw [hw, Lanes.word_unique.mpr hdata]
    · rw [State.streamRequest?_iff, MemoryPort.serves_eq_false]
      rfl
  · intro streamAfter access beatWindow streamFirst drainFirst toStream toHost toDrain
    have granted {g : Grant} {u : State} (hg : s.grantChoice = some g) (hu : s.grant g = u) : exec .arbiterGrant s = .next u :=
      (exec_arbiterGrant_some hp hl hg).trans (congrArg Host.Outcome.next hu)
    refine ⟨fun a hs ha hf => granted (State.grantChoice_stream hs hf) (State.grant_fits ha),
      fun a r hs ha hf hr => granted (State.grantChoice_stream hs hf) (State.grant_stream_beyond hp hr ha),
      fun a w hd ha hf => granted (State.grantChoice_drain hd hf) ((State.grant_fits ha).trans ?_),
      fun a w e hd ha hf he => ?_, fun a hh hs hd => ?_, fun hh hs hd => exec_arbiterGrant_none (State.grantChoice_nothing hh hs hd)⟩
    · cases w <;> rfl
    · intro waited
      refine ⟨fun hr older newer hsplit ho => ?_, fun hr => ?_⟩
      · have ho : ∀ f ∈ older, f.draining = false := fun f hf => by simp [Entry.draining, ho f hf]
        exact granted (State.grantChoice_drain hd hf)
          (State.grant_drain_first hp hd ha hsplit ho (List.find?_some (p := Entry.draining) he) hr)
      · obtain ⟨hdraining, older, newer, hsplit, ho⟩ := List.find?_eq_some_iff_append.mp he
        exact granted (State.grantChoice_drain hd hf)
          (State.grant_drain_lost hp hd ha hsplit (fun f hf => by simpa [Entry.draining] using ho f hf) hdraining hr)
    · have hchoice := State.grantChoice_host hh hs hd
      obtain ⟨_, c, words, got, hact, _⟩ := State.hostRequest?_iff.mp hh
      have hwindow : beatWindow = c.map Carried.window := by simp only [beatWindow, hact]
      rw [hwindow]
      have beyond (ha : s.port.memSize.bytes ≤ a) := granted hchoice (State.grant_host_beyond hp hact ha)
      refine ⟨fun ha => granted hchoice (State.grant_fits ha), beyond, fun ha hslot hchosen => (beyond ha).trans
        (congrArg Host.Outcome.next ?_)⟩
      exact State.goesOn_calm (t := (s.waited .hostRead).finishBeat ⟨true, 0⟩) hchosen hslot rfl rfl [_]

end Sys2Proof.Machine
end
